-- ==== Sys2Proof/Config.lean ====
section
/-! DEFINITION. The parameters of NPD (spec 00_scope R5, R6): each literal once, and the two OPEN ones without a body. -/

namespace Sys2Proof

/-- `BUF_SIZE`: bytes in the input buffer and the largest legal `LEN` (R5). -/
@[simp] abbrev Config.bufSize : Nat := 128
/-- Bytes of `OUT` (R37). -/
@[simp] abbrev Config.outSize : Nat := 8
/-- `HDR_MIN`: the length tested first (R5). -/
@[simp] abbrev Config.hdrMin : Nat := 12
/-- `HDR_LEN`: bytes of the fixed header (R5). -/
@[simp] abbrev Config.hdrLen : Nat := 48
/-- `TS_LEN`: bytes of one timestamp (R5). -/
@[simp] abbrev Config.tsLen : Nat := 8
/-- `EXT_HDR_LEN`: bytes of an extension field's type and length words (R5). -/
@[simp] abbrev Config.extHdrLen : Nat := 4
/-- `EXT_MIN_L`: the smallest legal declared length (R5). -/
@[simp] abbrev Config.extMinL : Nat := 4
/-- `EXT_MAX_COUNT`: most extension fields in one datagram (R5). -/
@[simp] abbrev Config.extMaxCount : Nat := 2
/-- `AUTH_LEN`: bytes of the authentication trailer (R5). -/
@[simp] abbrev Config.authLen : Nat := 20
/-- `KEYID_LEN`: bytes of the key identifier (R5). -/
@[simp] abbrev Config.keyIdLen : Nat := 4
/-- `DIGEST_LEN`: bytes of the digest (R5). -/
@[simp] abbrev Config.digestLen : Nat := 16
/-- `SUPPORTED_VERSION`: what the host's Validator compares with (R5, R260). -/
@[simp] abbrev Config.supportedVersion : Nat := 4
/-- `MAXSTRAT`: the stratum bound of the host's Validator (R5, R262). -/
@[simp] abbrev Config.maxStrat : Nat := 16
/-- `NTP_PORT`: the host's UDP port, not used inside NPD (R5, R265). -/
@[simp] abbrev Config.ntpPort : Nat := 123

/-- `REGMAP` (R5, R43): the bus address of each register number; OPEN, so it has no body. -/
opaque Config.regMap : Nat → Nat

/-- `MAX_CYCLES` (R5, R290): a bound in clock cycles on any command; OPEN: finite, otherwise unconstrained. -/
opaque Config.maxCycles : Nat

end Sys2Proof
end

