-- ==== Sys2Proof/Word.lean ====
section
/-! DEFINITION. The word types of the hardware (spec 00_scope R7, R8). -/

namespace Sys2Proof

/-- A byte, the addressable unit (R8, R61); bit 7 is the most significant (R7). -/
abbrev Byte := BitVec 8

/-- A 16-bit word: an extension field's type or length (R96), an error operand (R27). -/
abbrev Half := BitVec 16

/-- A 32-bit word: format W32, half a timestamp, a key identifier (R93 to R97). -/
abbrev Word := BitVec 32

end Sys2Proof
end

