-- ==== Sys2Proof/Syntax.lean ====
section
/-! DEFINITION. Syntax: the instructions of the opcode table (R105, R110, R98), the phases (R38), the mode variants
(R98), what selects an instruction (R111), and the listing notation for datagrams and commands (R106). -/

namespace Sys2Proof

/-- The 18 phases of `pc.phase` (R38): each names the step that runs next; `idle` runs none. -/
inductive Phase where
  | idle | chk | b0 | stratum | poll | prec | rdelay | rdisp | refid
  | tsref | tsorg | tsrcv | tsxmt | scan | exthdr | extval | auth | fin
deriving DecidableEq, Repr

/-- The eight variants of the mode enumeration, in the order of R98. -/
inductive ModeVariant where
  | reserved | symmetricActive | symmetricPassive | client | server | broadcast | control | reservedPrivate
deriving DecidableEq, Repr

/-- One constructor per row of the opcode table: four host commands (R105), seventeen parse steps (R110), and the
eight rows of the mode enumeration (R98), which name values of `MODE` and are no operations (R111). -/
inductive Instr where
  -- host commands, selected by CMD at START
  | nop | pktDec | tsDec | tsEnc
  -- parse steps, selected by pc.phase
  | chkHdr12 | unpkB0 | ldStratum | ldPoll | ldPrec | ldRdelay | ldRdisp | ldRefid
  | tsRef | tsOrg | tsRcv | tsXmt
  | extScan | extHdr | extVal | authLd | finChk
  -- mode enumeration, matched on byte 0
  | modeReserved | modeSymmetricActive | modeSymmetricPassive | modeClient
  | modeServer | modeBroadcast | modeControl | modeReservedPrivate
deriving DecidableEq, Repr

/-- What selects a row of the table (R111): the `CMD` code, the phase, or byte 0 of the datagram. -/
inductive Selector where
  | cmd (code : BitVec 2)
  | phase (p : Phase)
  | modeByte (b : Byte)
deriving DecidableEq, Repr

/-- The table's format names (R111). -/
inductive Format where
  | CMD | CTRL | B0 | U8 | S8 | W32 | TS64 | EXT | AUTH | ENUM
deriving DecidableEq, Repr

/-- A timestamp: seconds and fraction, 32 bits each (R95, R130). -/
structure Timestamp where
  seconds : Word
  fraction : Word
deriving DecidableEq, Repr

/-- An extension field (R96): type, declared length `L`, value bytes. -/
structure ExtField where
  type : Half
  length : Half
  value : List Byte
deriving DecidableEq, Repr

/-- An authentication trailer (R97): key identifier and 16 digest bytes in buffer order. -/
structure AuthTrailer where
  keyId : Word
  digest : Vector Byte 16
deriving DecidableEq, Repr

/-- The directives of the field listing (R106b); the scalar operands are the wire bits. -/
inductive Directive where
  | b0 (leap : BitVec 2) (version : BitVec 3) (mode : BitVec 3)
  | stratum (v : Byte)
  | poll (v : Byte)
  | prec (v : Byte)
  | rdelay (v : Word)
  | rdisp (v : Word)
  | refid (v : Word)
  | ts (t : Timestamp)
  | ext (f : ExtField)
  | auth (a : AuthTrailer)
  | raw (bytes : List Byte)
deriving DecidableEq, Repr

/-- A datagram of the shape of R90: the header's fields, extension fields, an optional trailer. -/
structure Datagram where
  leap : BitVec 2
  version : BitVec 3
  mode : BitVec 3
  stratum : Byte
  poll : Byte
  precision : Byte
  rootDelay : Word
  rootDisp : Word
  refId : Word
  refTs : Timestamp
  orgTs : Timestamp
  rcvTs : Timestamp
  xmtTs : Timestamp
  exts : List ExtField
  auth : Option AuthTrailer
deriving DecidableEq, Repr

/-- A command as the listing notation writes it, with its operands (R106). -/
inductive CommandLine where
  | nop
  | pktDec
  | tsDec (off : Byte)
  | tsEnc (sec frac : Word)
deriving DecidableEq, Repr

/-- The abstract `Packet` value of R41. -/
structure Packet where
  leap : BitVec 2
  version : BitVec 3
  mode : ModeVariant
  stratum : Byte
  poll : Byte
  precision : Int
  rootDelay : Word
  rootDisp : Word
  refId : Word
  refTs : Timestamp
  orgTs : Timestamp
  rcvTs : Timestamp
  xmtTs : Timestamp
  ext1 : Option ExtField
  ext2 : Option ExtField
  auth : Option AuthTrailer
deriving DecidableEq, Repr

end Sys2Proof
end

