-- ==== Sys2Proof/Decode.lean ====
section
/-! DEFINITION. Decoding and encoding: the field extraction and big-endian assembly of the wire formats (R62 to R64,
R91 to R97, R108), the selection of an instruction (R105, R110, R111), the mode enumeration (R98), and, after the
decoder, the encoder of instructions and of datagram listings (R106). -/

namespace Sys2Proof

/-! ## Bytes and bit-fields -/

/-- The unsigned integer a byte string spells in big-endian order (R62, R64). -/
def beNat (bytes : List Byte) : Nat := bytes.foldl (fun acc b => acc * 256 + b.toNat) 0

/-- The byte at distance `k` from the first of an `n`-byte big-endian value `v`:
`(v >> (8·(n-1-k))) & 0xFF` (R70). -/
def beByte (n v k : Nat) : Byte := BitVec.ofNat 8 (v >>> (8 * (n - 1 - k)))

/-- The `n` bytes of `v`, most significant first (R62, R70). -/
def beBytes (n v : Nat) : List Byte := (List.range n).map (beByte n v)

/-- `leap = b[7:6]` (R91). -/
def b0Leap (b : Byte) : BitVec 2 := b.extractLsb' 6 2
/-- `version = b[5:3]` (R91). -/
def b0Version (b : Byte) : BitVec 3 := b.extractLsb' 3 3
/-- `mode = b[2:0]` (R91). -/
def b0Mode (b : Byte) : BitVec 3 := b.extractLsb' 0 3

/-- `BUF[0] = leap·64 + version·8 + mode` (R91). -/
def b0Byte (leap : BitVec 2) (version mode : BitVec 3) : Byte :=
  BitVec.ofNat 8 (leap.toNat * 64 + version.toNat * 8 + mode.toNat)

/-! ## The mode enumeration (R98) -/

/-- The variant a 3-bit `MODE` value names; total (R98). -/
def modeVariant (m : BitVec 3) : ModeVariant :=
  match m.toNat with
  | 0 => .reserved
  | 1 => .symmetricActive
  | 2 => .symmetricPassive
  | 3 => .client
  | 4 => .server
  | 5 => .broadcast
  | 6 => .control
  | _ => .reservedPrivate

/-- The number of a variant (R98). -/
def modeBits : ModeVariant → BitVec 3
  | .reserved => 0
  | .symmetricActive => 1
  | .symmetricPassive => 2
  | .client => 3
  | .server => 4
  | .broadcast => 5
  | .control => 6
  | .reservedPrivate => 7

/-- The table row of a variant. -/
def modeRow : ModeVariant → Instr
  | .reserved => .modeReserved
  | .symmetricActive => .modeSymmetricActive
  | .symmetricPassive => .modeSymmetricPassive
  | .client => .modeClient
  | .server => .modeServer
  | .broadcast => .modeBroadcast
  | .control => .modeControl
  | .reservedPrivate => .modeReservedPrivate

/-! ## Decoding -/

/-- Why the decoder answers no instruction. -/
inductive DecodeRefusal where
  /-- `P_IDLE` selects no step (R213). Safe: nothing runs. -/
  | noStepInIdle
  /-- The bits given hold no selecting field: a row of mask 0 is selected by the phase alone (R111). Safe. -/
  | noSelectingBits (nbits : Nat)
deriving DecidableEq, Repr

/-- The command a `CMD` code selects (R105); all four codes are defined. -/
def decodeCmd (code : BitVec 2) : Instr :=
  match code.toNat with
  | 0 => .nop
  | 1 => .pktDec
  | 2 => .tsDec
  | _ => .tsEnc

/-- The step a phase selects (R110, R213). -/
def decodePhase : Phase → Except DecodeRefusal Instr
  | .idle => .error .noStepInIdle
  | .chk => .ok .chkHdr12
  | .b0 => .ok .unpkB0
  | .stratum => .ok .ldStratum
  | .poll => .ok .ldPoll
  | .prec => .ok .ldPrec
  | .rdelay => .ok .ldRdelay
  | .rdisp => .ok .ldRdisp
  | .refid => .ok .ldRefid
  | .tsref => .ok .tsRef
  | .tsorg => .ok .tsOrg
  | .tsrcv => .ok .tsRcv
  | .tsxmt => .ok .tsXmt
  | .scan => .ok .extScan
  | .exthdr => .ok .extHdr
  | .extval => .ok .extVal
  | .auth => .ok .authLd
  | .fin => .ok .finChk

/-- The instruction a selector selects, or a refusal by name (R111). -/
def decode : Selector → Except DecodeRefusal Instr
  | .cmd code => .ok (decodeCmd code)
  | .phase p => decodePhase p
  | .modeByte b => .ok (modeRow (modeVariant (b0Mode b)))

/-- How bits numbered as the opcode table numbers them are read: the 2-bit `CMD` code when they are two bits wide or a
byte below 4, byte 0 of a datagram (format ENUM) when they are any other byte. Rows of other widths have mask 0 and no
selecting bits (R111). DESIGN CHOICE, log 12: a byte below 4 is both a `CMD` word and a `MODE.` word of the table. -/
def wordSelector (nbits w : Nat) : Except DecodeRefusal Selector :=
  if (nbits = 2 ∨ nbits = 8) ∧ w < 4 then .ok (.cmd (BitVec.ofNat 2 w))
  else if nbits = 8 ∧ w < 256 then .ok (.modeByte (BitVec.ofNat 8 w))
  else .error (.noSelectingBits nbits)

/-- The instruction the decoder reads from the table's bits; none where it refuses. -/
def decodeTableWord (nbits w : Nat) : Option Instr :=
  match wordSelector nbits w with
  | .error _ => none
  | .ok sel => (decode sel).toOption

/-! ## Encoding -/

/-- The selector of an instruction: its `CMD` code (R105), its phase (R110), or byte 0 with its mode bits and every
other bit 0 (R98). -/
def encode : Instr → Selector
  | .nop => .cmd 0b00
  | .pktDec => .cmd 0b01
  | .tsDec => .cmd 0b10
  | .tsEnc => .cmd 0b11
  | .chkHdr12 => .phase .chk
  | .unpkB0 => .phase .b0
  | .ldStratum => .phase .stratum
  | .ldPoll => .phase .poll
  | .ldPrec => .phase .prec
  | .ldRdelay => .phase .rdelay
  | .ldRdisp => .phase .rdisp
  | .ldRefid => .phase .refid
  | .tsRef => .phase .tsref
  | .tsOrg => .phase .tsorg
  | .tsRcv => .phase .tsrcv
  | .tsXmt => .phase .tsxmt
  | .extScan => .phase .scan
  | .extHdr => .phase .exthdr
  | .extVal => .phase .extval
  | .authLd => .phase .auth
  | .finChk => .phase .fin
  | .modeReserved => .modeByte 0x00
  | .modeSymmetricActive => .modeByte 0x01
  | .modeSymmetricPassive => .modeByte 0x02
  | .modeClient => .modeByte 0x03
  | .modeServer => .modeByte 0x04
  | .modeBroadcast => .modeByte 0x05
  | .modeControl => .modeByte 0x06
  | .modeReservedPrivate => .modeByte 0x07

/-- The table's format of each row (R111). -/
def Instr.format : Instr → Format
  | .nop | .pktDec | .tsDec | .tsEnc => .CMD
  | .chkHdr12 | .extScan | .finChk => .CTRL
  | .unpkB0 => .B0
  | .ldStratum | .ldPoll => .U8
  | .ldPrec => .S8
  | .ldRdelay | .ldRdisp | .ldRefid => .W32
  | .tsRef | .tsOrg | .tsRcv | .tsXmt => .TS64
  | .extHdr | .extVal => .EXT
  | .authLd => .AUTH
  | .modeReserved | .modeSymmetricActive | .modeSymmetricPassive | .modeClient
  | .modeServer | .modeBroadcast | .modeControl | .modeReservedPrivate => .ENUM

/-- The bytes a directive emits (R106): exactly those of its format (R91 to R97). -/
def Directive.bytes : Directive → List Byte
  | .b0 leap version mode => [b0Byte leap version mode]
  | .stratum v => [v]
  | .poll v => [v]
  | .prec v => [v]
  | .rdelay v => beBytes 4 v.toNat
  | .rdisp v => beBytes 4 v.toNat
  | .refid v => beBytes 4 v.toNat
  | .ts t => beBytes 4 t.seconds.toNat ++ beBytes 4 t.fraction.toNat
  | .ext f => beBytes 2 f.type.toNat ++ beBytes 2 f.length.toNat ++ f.value
  | .auth a => beBytes 4 a.keyId.toNat ++ a.digest.toList
  | .raw bytes => bytes

/-- The bytes of a listing; their number is the `LEN` that goes with it (R106). -/
def listingBytes (ds : List Directive) : List Byte := ds.flatMap Directive.bytes

/-- The field listing of a datagram, in buffer order (R106, R90). -/
def Datagram.listing (d : Datagram) : List Directive :=
  [.b0 d.leap d.version d.mode, .stratum d.stratum, .poll d.poll, .prec d.precision,
   .rdelay d.rootDelay, .rdisp d.rootDisp, .refid d.refId,
   .ts d.refTs, .ts d.orgTs, .ts d.rcvTs, .ts d.xmtTs]
    ++ d.exts.map .ext ++ d.auth.toList.map .auth

/-- The encoder of datagrams: the bytes of the listing. -/
def Datagram.bytes (d : Datagram) : List Byte := listingBytes d.listing

/-- The `Packet` a datagram stands for (R41). -/
def Datagram.packet (d : Datagram) : Packet where
  leap := d.leap
  version := d.version
  mode := modeVariant d.mode
  stratum := d.stratum
  poll := d.poll
  precision := d.precision.toInt
  rootDelay := d.rootDelay
  rootDisp := d.rootDisp
  refId := d.refId
  refTs := d.refTs
  orgTs := d.orgTs
  rcvTs := d.rcvTs
  xmtTs := d.xmtTs
  ext1 := d.exts[0]?
  ext2 := d.exts[1]?
  auth := d.auth

end Sys2Proof
end

