-- ==== Sys2Proof/Machine/State.lean ====
section
/-! DEFINITION. The state of NPD (spec 10_state R20) as plain data, its reset values (R44), and the reasons a move can
stop. A register that can be `novalue` (00_scope R11) is an Option: `none` IS the spec's `novalue` (93 U1), a content no
one may read, not a register waiting for a reset value (log 1). -/

namespace Sys2Proof.Machine

/-- `STATUS` (R26): two bits, all four codes defined. -/
inductive Status where
  | idle | busy | ok | err
deriving DecidableEq, Repr

/-- The 2-bit code of `STATUS` (R26). -/
def Status.code : Status → BitVec 2
  | .idle => 0b00
  | .busy => 0b01
  | .ok => 0b10
  | .err => 0b11

/-- `ERR_KIND` (R27, R241): two bits, all four codes defined. -/
inductive ErrKind where
  | noError | truncated | malformedExtension | trailingGarbage
deriving DecidableEq, Repr

/-- The 2-bit cause code of `ERR_KIND` (R241). -/
def ErrKind.code : ErrKind → BitVec 2
  | .noError => 0
  | .truncated => 1
  | .malformedExtension => 2
  | .trailingGarbage => 3

/-- A decode error with its operands (R240 to R244). -/
inductive DecodeError where
  | truncated (need have_ : Nat)
  | malformedExtension
  | trailingGarbage (n : Nat)
deriving DecidableEq, Repr

/-- A private memory as the list of its listed bytes, addresses strictly rising (`Memory.rising`). -/
abbrev Memory := List Host.Cell

/-- `pc` (R38): the phase, the offset of the first byte not consumed, the extension fields committed. `pos` and `extcnt`
are `novalue` after an error (R245). -/
structure Pc where
  phase : Phase
  pos : Option (BitVec 8)
  extcnt : Option (BitVec 2)
deriving DecidableEq, Repr

/-- The packet field registers of R29 to R35, but for the three flags (R40). -/
structure PacketRegs where
  leap : Option (BitVec 2)
  version : Option (BitVec 3)
  mode : Option (BitVec 3)
  stratum : Option Byte
  poll : Option Byte
  precision : Option Byte
  rootDelay : Option Word
  rootDisp : Option Word
  refId : Option Word
  refTsSec : Option Word
  refTsFrac : Option Word
  orgTsSec : Option Word
  orgTsFrac : Option Word
  rcvTsSec : Option Word
  rcvTsFrac : Option Word
  xmtTsSec : Option Word
  xmtTsFrac : Option Word
  ext1Type : Option Half
  ext1Len : Option Half
  ext1Off : Option Byte
  ext2Type : Option Half
  ext2Len : Option Half
  ext2Off : Option Byte
  keyId : Option Word
  digest : Option (Vector Byte 16)
deriving DecidableEq, Repr

/-- Every packet field register `novalue` (R210, R245, R44). -/
def PacketRegs.novalue : PacketRegs :=
  ⟨none, none, none, none, none, none, none, none, none, none, none, none, none, none, none, none, none,
   none, none, none, none, none, none, none, none⟩

/-- The whole state of NPD, exactly the components of R20: (a) `buf`, `out`; (b) `len` to `tsInFrac`; (c) `status` to
`resid`; (d) `pkt` and the three flags; (e) `tsdSec`, `tsdFrac`; (f) `pc`; (g) `xtType`, `xtLen`. START is an event and
no component (R23; log 5). -/
structure State where
  /-- `BUF` (R21): 128 bytes, written by the host; an unlisted byte reads 0 (log 3). -/
  buf : Memory
  /-- `OUT` (R37): 8 bytes; an unlisted byte is `novalue` (log 4). -/
  out : Memory
  /-- `LEN` (R22). -/
  len : BitVec 8
  /-- `CMD` (R23). -/
  cmd : BitVec 2
  /-- `OFF` (R24). -/
  off : BitVec 8
  /-- `TS_IN_SEC` (R25). -/
  tsInSec : Word
  /-- `TS_IN_FRAC` (R25). -/
  tsInFrac : Word
  /-- `STATUS` (R26). -/
  status : Status
  /-- `ERR_KIND` (R27). -/
  errKind : ErrKind
  /-- `ERR_NEED` (R27). -/
  errNeed : Option Half
  /-- `ERR_HAVE` (R27). -/
  errHave : Option Half
  /-- `ERR_N` (R27). -/
  errN : Option Half
  /-- `RESID` (R28). -/
  resid : Option Byte
  /-- The packet field registers (R29 to R35). -/
  pkt : PacketRegs
  /-- `EXT1_VALID` (R40). -/
  ext1Valid : Option Bool
  /-- `EXT2_VALID` (R40). -/
  ext2Valid : Option Bool
  /-- `AUTH_VALID` (R40). -/
  authValid : Option Bool
  /-- `TSD_SEC` (R36). -/
  tsdSec : Option Word
  /-- `TSD_FRAC` (R36). -/
  tsdFrac : Option Word
  /-- The hidden parse position (R38). -/
  pc : Pc
  /-- `XT_TYPE` (R39). -/
  xtType : Option Half
  /-- `XT_LEN` (R39). -/
  xtLen : Option Half
deriving DecidableEq, Repr

/-- The machine right after reset (R44, R280). `OFF`, `TS_IN_SEC`, `TS_IN_FRAC` and `BUF` are unspecified there: zero,
DESIGN CHOICE (log 2, log 3). -/
def State.reset : State where
  buf := []
  out := []
  len := 0
  cmd := 0b00
  off := 0
  tsInSec := 0
  tsInFrac := 0
  status := .idle
  errKind := .noError
  errNeed := none
  errHave := none
  errN := none
  resid := none
  pkt := .novalue
  ext1Valid := some false
  ext2Valid := some false
  authValid := some false
  tsdSec := none
  tsdFrac := none
  pc := ⟨.idle, some 0, some 0⟩
  xtType := none
  xtLen := none

/-- The hidden registers a step can read while they are `novalue`. -/
inductive HiddenReg where
  | pos | extcnt | xtType | xtLen
deriving DecidableEq, Repr

/-- Guards of the model: each names a case the spec proves cannot arise (R9, R42, R65), so no state that meets the
invariant of Safety.lean raises one (log 13). The three decode errors of the hardware are NOT faults: they are next
states (R245). -/
inductive Fault where
  /-- A `MemRead` past `LEN` (R65). Raised by the operand reads. Safe: no byte is invented. -/
  | readPastLength
  /-- A `MemRead` of an address `BUF` does not have (R60, R65c), possible only with `LEN > 128`. Safe. -/
  | noSuchAddress
  /-- `pc.pos > LEN`, against invariant I1 (R42), where `rem` is formed (R9). Raised by EXT.SCAN, EXT.HDR, FIN.CHK. Safe. -/
  | posPastLength
  /-- A new `pc.pos` above 128 (R38: never). Raised by the steps that add to `pc.pos`. Safe. -/
  | posOutOfRange
  /-- `EXT.VAL` with two extension fields already committed (R183, R186: never). Safe. -/
  | extcntOutOfRange
  /-- A step reads a hidden register that is `novalue` (R11). Safe. -/
  | readNoValue (r : HiddenReg)
deriving DecidableEq, Repr

/-- Moves the spec gives no meaning. -/
inductive Refusal where
  /-- An instruction without a meaning yet; `exec` alone answers it. Safe. -/
  | notModelled (mnemonic : String)
  /-- START of a command other than NOP with `LEN > 128` (R221, U4: "the transition does not exist"). Raised by
  `onStart`. Safe. -/
  | lenOverBufSize
  /-- A host write while BUSY (R71d, R283, U5: the host has no such move). Raised by `hostMove`. Safe. -/
  | hostWriteWhileBusy
  /-- A host read of anything but STATUS while BUSY (R40, R284). Raised by the host reads. Safe. -/
  | hostReadWhileBusy
  /-- A host read of a register that is `novalue` (R11, R285). Raised by the host reads. Safe. -/
  | hostReadNoValue
deriving DecidableEq, Repr

/-- What a move of this machine answers. -/
abbrev Outcome := Host.Outcome State Fault Refusal

end Sys2Proof.Machine
end

