-- ==== Sys2Proof/Machine/Flags.lean ====
section
/-! DEFINITION. Every computation of a flag (spec 10_state R40): the three validity flags are cleared at START, set by
the one step that commits their section, and lose their value on an error. NPD has no other flag. -/

namespace Sys2Proof.Machine

/-- START clears the three flags (R210, R40). -/
def clearFlags (s : State) : State :=
  { s with ext1Valid := some false, ext2Valid := some false, authValid := some false }

/-- The three flags become `novalue` (R245; R40 for the timestamp commands). -/
def loseFlags (s : State) : State :=
  { s with ext1Valid := none, ext2Valid := none, authValid := none }

/-- `EXT1_VALID <- 1` (R183, `pc.extcnt = 0`). -/
def setExt1Valid (s : State) : State := { s with ext1Valid := some true }

/-- `EXT2_VALID <- 1` (R183, `pc.extcnt = 1`). -/
def setExt2Valid (s : State) : State := { s with ext2Valid := some true }

/-- `AUTH_VALID <- 1` (R184). -/
def setAuthValid (s : State) : State := { s with authValid := some true }

end Sys2Proof.Machine
end

