-- ==== Sys2Proof/Machine/Ops.lean ====
section
/-! DEFINITION. The operations the meanings share: the two memories (spec 20_memory), what a step yields, the hidden
registers, the START action (R210), completion (R215), the error exit (R245). -/

namespace Sys2Proof.Machine

/-! ## The memories -/

/-- The byte listed at an address. -/
def Memory.lookup : Memory → Nat → Option Byte
  | [], _ => none
  | (a, b) :: m, x => if x = a then some b else Memory.lookup m x

/-- List a byte at an address, keeping addresses rising. -/
def Memory.insert : Memory → Nat → Byte → Memory
  | [], x, b => [(x, b)]
  | (a, c) :: m, x, b =>
    if x < a then (x, b) :: (a, c) :: m
    else if x = a then (x, b) :: m
    else (a, c) :: Memory.insert m x b

/-- Unlist an address. -/
def Memory.erase : Memory → Nat → Memory
  | [], _ => []
  | (a, c) :: m, x => if x = a then m else (a, c) :: Memory.erase m x

/-- Addresses strictly rising. -/
def Memory.rising : Memory → Bool
  | [] => true
  | [_] => true
  | (a, _) :: (b, c) :: m => decide (a < b) && Memory.rising ((b, c) :: m)

/-- What a byte of `BUF` that nothing has written reads as. The spec leaves it unspecified (R44): DESIGN CHOICE, log 3. -/
def unlistedByte : Byte := 0

/-- The canonical form of `BUF`: rising addresses inside the 128 bytes, no entry that reads as an unlisted one. -/
def Memory.bufWf (m : Memory) : Bool :=
  Memory.rising m && m.all fun c => decide (c.1 < Config.bufSize) && decide (c.2 ≠ unlistedByte)

/-- The canonical form of `OUT`: rising addresses inside the 8 bytes. -/
def Memory.outWf (m : Memory) : Bool :=
  Memory.rising m && m.all fun c => decide (c.1 < Config.outSize)

/-- The memory form holds: both memories are canonical. -/
def Memory.wf (s : State) : Bool := Memory.bufWf s.buf && Memory.outWf s.out

/-- `BUF[a]` (R21). -/
def bufRead (m : Memory) (a : Nat) : Byte := (Memory.lookup m a).getD unlistedByte

/-- The host writes `BUF[a]` (R21, R45). -/
def bufWrite (m : Memory) (a : Nat) (b : Byte) : Memory :=
  if b = unlistedByte then Memory.erase m a else Memory.insert m a b

/-- `BUF` with successive bytes written from address `a` on. -/
def bufLoad (m : Memory) (a : Nat) : List Byte → Memory
  | [] => m
  | b :: bs => bufLoad (bufWrite m a b) (a + 1) bs

/-- The byte string `BUF[a .. a+n)` (R8). -/
def bufBytes (m : Memory) (a n : Nat) : List Byte := (List.range n).map fun k => bufRead m (a + k)

/-- `OUT[a]`, none where it is `novalue` (R37). -/
def outRead (m : Memory) (a : Nat) : Option Byte := Memory.lookup m a

/-- `MemWrite(addr, n, v)` on `OUT` (R70): byte `k` is byte `n-1-k` of `v` counted from the least significant. -/
def memWrite (m : Memory) (addr n v : Nat) : Memory :=
  (List.range n).foldl (fun acc k => Memory.insert acc (addr + k) (beByte n v k)) m

/-- The datagram: `BUF[0..LEN)` (R90). -/
def State.datagram (s : State) : List Byte := bufBytes s.buf 0 s.len.toNat

/-! ## What a step yields -/

/-- What the body of a step comes to: a value, one of the three decode errors, or a guard of the model. -/
inductive Eff (α : Type) where
  | val (a : α)
  | raised (e : DecodeError)
  | stop (f : Fault)
deriving Repr

/-- Go on with the value; an error or a stop ends the step (R214: no later statement runs). -/
def Eff.bind {α β : Type} (x : Eff α) (k : α → Eff β) : Eff β :=
  match x with
  | .val a => k a
  | .raised e => .raised e
  | .stop f => .stop f

/-- The value of an Option, or the model's guard. -/
def Eff.ofOption {α : Type} (x : Option α) (f : Fault) : Eff α :=
  match x with
  | some a => .val a
  | none => .stop f

/-- Raise unless the condition holds. -/
def Eff.check (ok : Bool) (e : DecodeError) : Eff Unit := if ok then .val () else .raised e

/-! ## The error exit and its return -/

/-- The cause code of an error (R241). -/
def DecodeError.kind : DecodeError → ErrKind
  | .truncated _ _ => .truncated
  | .malformedExtension => .malformedExtension
  | .trailingGarbage _ => .trailingGarbage

/-- `ERR_NEED` of an error (R245). -/
def DecodeError.need : DecodeError → Option Half
  | .truncated n _ => some (BitVec.ofNat 16 n)
  | .malformedExtension => none
  | .trailingGarbage _ => none

/-- `ERR_HAVE` of an error (R245). -/
def DecodeError.have_ : DecodeError → Option Half
  | .truncated _ h => some (BitVec.ofNat 16 h)
  | .malformedExtension => none
  | .trailingGarbage _ => none

/-- `ERR_N` of an error (R245). -/
def DecodeError.n : DecodeError → Option Half
  | .truncated _ _ => none
  | .malformedExtension => none
  | .trailingGarbage n => some (BitVec.ofNat 16 n)

/-- TAKING AN EXCEPTION: the error exit, as one action (R245, R214). The cause and its operands are recorded, every
result loses its value, `pc.phase` goes to `P_IDLE`, STATUS to ERR; nothing is saved, there is no handler. -/
def raiseError (e : DecodeError) (s : State) : State :=
  { loseFlags s with
    errKind := e.kind
    errNeed := e.need
    errHave := e.have_
    errN := e.n
    pkt := .novalue
    resid := none
    tsdSec := none
    tsdFrac := none
    pc := ⟨.idle, none, none⟩
    xtType := none
    xtLen := none
    status := .err }

/-- The end of a step: a value gives the next state, an error takes the error exit, a stop is a fault. -/
def Eff.finish {α : Type} (x : Eff α) (s : State) (k : α → State) : Outcome :=
  match x with
  | .val a => .next (k a)
  | .raised e => .next (raiseError e s)
  | .stop f => .fault f

/-- The START action of R210, but for the selected command's own part. It is also the only RETURN from an error (R248):
it clears `ERR_KIND` and every operand. -/
def startAction (s : State) : State :=
  { clearFlags s with
    status := .busy
    errKind := .noError
    errNeed := none
    errHave := none
    errN := none
    resid := none
    pkt := .novalue
    tsdSec := none
    tsdFrac := none
    out := []
    xtType := none
    xtLen := none }

/-- A START of a command other than NOP: ignored while BUSY (R216), refused with `LEN > 128` (R221), else the START
action and then the command's own part (R210). -/
def onStart (s : State) (body : State → Outcome) : Outcome :=
  if s.status = .busy then .next s
  else if Config.bufSize < s.len.toNat then .refused .lenOverBufSize
  else body (startAction s)

/-- `complete with STATUS = OK` (R215). -/
def completeOk (s : State) : State := { s with pc := { s.pc with phase := .idle }, status := .ok }

/-! ## The parse position and the hidden temporaries -/

/-- `pc.pos`, a guard where it is `novalue` (R11, R245). -/
def readPos (s : State) : Eff Nat :=
  (Eff.ofOption s.pc.pos (.readNoValue .pos)).bind fun p => .val p.toNat

/-- `pc.extcnt`, a guard where it is `novalue`. -/
def readExtcnt (s : State) : Eff Nat :=
  (Eff.ofOption s.pc.extcnt (.readNoValue .extcnt)).bind fun c => .val c.toNat

/-- `XT_TYPE`, a guard where it is `novalue` (R39). -/
def readXtType (s : State) : Eff Half := Eff.ofOption s.xtType (.readNoValue .xtType)

/-- `XT_LEN`, a guard where it is `novalue` (R39). -/
def readXtLen (s : State) : Eff Half := Eff.ofOption s.xtLen (.readNoValue .xtLen)

/-- `rem = x[LEN] - pc.pos` (R10), exact; a guard where it would be negative (R9, I1). -/
def remaining (s : State) : Eff Nat :=
  (readPos s).bind fun p => if p ≤ s.len.toNat then .val (s.len.toNat - p) else .stop .posPastLength

/-- A new `pc.pos`: 0 to 128 (R38); a guard above. -/
def newPos (n : Nat) : Eff (BitVec 8) :=
  if n ≤ Config.bufSize then .val (BitVec.ofNat 8 n) else .stop .posOutOfRange

/-- `pc <- (phase, pos, extcnt)`, every component written (R10). -/
def State.setPc (s : State) (phase : Phase) (pos : BitVec 8) (extcnt : BitVec 2) : State :=
  { s with pc := ⟨phase, some pos, some extcnt⟩ }

/-- `pc.phase <- phase`; the other components keep their value (R10). -/
def State.setPhase (s : State) (phase : Phase) : State := { s with pc := { s.pc with phase := phase } }

/-- `pc <- (phase, pos, pc.extcnt)` (R135 to R138, R184). -/
def State.setPhasePos (s : State) (phase : Phase) (pos : BitVec 8) : State :=
  { s with pc := { s.pc with phase := phase, pos := some pos } }

end Sys2Proof.Machine
end

