-- ==== Sys2Proof/Machine/Commands.lean ====
section
/-! DEFINITION. The host commands NOP (spec 43_sequencer_commands R211) and PKT.DEC (R212, R210). -/

namespace Sys2Proof.Machine

/-- `NOP` (R211): a START with no effect at all, whatever STATUS and `LEN` are. -/
def execNop (s : State) : Outcome := .next s

/-- `PKT.DEC` (R212) at START: the START action and `pc <- (P_CHK, 0, 0)` (R210); then the steps run (R213). -/
def execPktDec (s : State) : Outcome := onStart s fun s' => .next (s'.setPc .chk 0 0)

end Sys2Proof.Machine
end

