-- ==== Sys2Proof/Machine/Operands.lean ====
section
/-! DEFINITION. The operand forms: `MemRead` with the length guard (spec 20_memory R64, R65) at the widths of R67, the
byte string of the digest, and the timestamp read `ts_decode` (R131). -/

namespace Sys2Proof.Machine

/-- The guard of `MemRead(addr, n)` (R65): the bytes exist in `BUF` and lie inside `LEN`. -/
def readable (s : State) (addr n : Nat) : Eff Unit :=
  if Config.bufSize < addr + n ∧ addr + n ≤ s.len.toNat then .stop .noSuchAddress
  else if addr + n ≤ s.len.toNat then .val ()
  else .stop .readPastLength

/-- `MemRead(addr, n)`: the big-endian unsigned integer of the `n` bytes from `addr` (R64), under the guard (R65). -/
def memRead (s : State) (addr n : Nat) : Eff Nat :=
  (readable s addr n).bind fun _ => .val (beNat (bufBytes s.buf addr n))

/-- `MemRead(addr, 1)`, 8 bits (R67). -/
def readU8 (s : State) (addr : Nat) : Eff Byte := (memRead s addr 1).bind fun v => .val (BitVec.ofNat 8 v)

/-- `MemRead(addr, 2)`, 16 bits (R67). -/
def readU16 (s : State) (addr : Nat) : Eff Half := (memRead s addr 2).bind fun v => .val (BitVec.ofNat 16 v)

/-- `MemRead(addr, 4)`, 32 bits (R67). -/
def readU32 (s : State) (addr : Nat) : Eff Word := (memRead s addr 4).bind fun v => .val (BitVec.ofNat 32 v)

/-- Sixteen `MemRead(addr + i, 1)` in buffer order (R184, R64). -/
def readDigest (s : State) (addr : Nat) : Eff (Vector Byte 16) :=
  (readable s addr Config.digestLen).bind fun _ => .val (Vector.ofFn fun i => bufRead s.buf (addr + i.val))

/-- `ts_decode(off)` (R131): Truncated when fewer than 8 bytes remain, else the two big-endian words. -/
def tsDecode (s : State) (off : Nat) : Eff Timestamp :=
  (Eff.check (decide (off + Config.tsLen ≤ s.len.toNat)) (.truncated (off + Config.tsLen) s.len.toNat)).bind fun _ =>
  (readU32 s off).bind fun sec =>
  (readU32 s (off + 4)).bind fun frac =>
  .val ⟨sec, frac⟩

end Sys2Proof.Machine
end

