-- ==== Sys2Proof/Machine/ExtAuth.lean ====
section
/-! DEFINITION. The extension-field parser and the authentication trailer (spec 42_extension_auth_parser R181 to R185). -/

namespace Sys2Proof.Machine

/-- The dispatch of `EXT.SCAN` (R181): the tests in the order written, the first that holds decides. -/
def scanTarget (rem extcnt : Nat) : Phase :=
  if rem = 0 then .fin
  else if rem = Config.authLen then .auth
  else if extcnt = Config.extMaxCount then .fin
  else if rem < Config.extHdrLen then .fin
  else .exthdr

/-- `EXT.SCAN` (R181): no byte read, `pc.pos` and `pc.extcnt` unchanged. -/
def execExtScan (s : State) : Outcome :=
  ((remaining s).bind fun rem => (readExtcnt s).bind fun c => .val (scanTarget rem c)).finish s fun ph => s.setPhase ph

/-- The length check of R182, exact: `L < 4` or `L > rem - 4` is malformed. -/
def extLengthOk (l rem : Nat) : Bool := decide (Config.extMinL ≤ l) && decide (l ≤ rem - Config.extHdrLen)

/-- `EXT.HDR` (R182): the two words are read, the length checked, the temporaries written. -/
def execExtHdr (s : State) : Outcome :=
  ((remaining s).bind fun rem =>
   (readPos s).bind fun p =>
   (readU16 s p).bind fun t =>
   (readU16 s (p + 2)).bind fun l =>
   (Eff.check (extLengthOk l.toNat rem) .malformedExtension).bind fun _ => .val (t, l)).finish s fun r =>
    State.setPhase { s with xtType := some r.1, xtLen := some r.2 } .extval

/-- The descriptor of the first field (R183, `pc.extcnt = 0`). -/
def commitExt1 (s : State) (t l : Half) (off : Byte) : State :=
  setExt1Valid { s with pkt := { s.pkt with ext1Type := some t, ext1Len := some l, ext1Off := some off } }

/-- The descriptor of the second field (R183, `pc.extcnt = 1`). -/
def commitExt2 (s : State) (t l : Half) (off : Byte) : State :=
  setExt2Valid { s with pkt := { s.pkt with ext2Type := some t, ext2Len := some l, ext2Off := some off } }

/-- The descriptor that `pc.extcnt` selects (R183). -/
def commitExt (s : State) (c : Nat) (t l : Half) (off : Byte) : Eff State :=
  if c = 0 then .val (commitExt1 s t l off)
  else if c = 1 then .val (commitExt2 s t l off)
  else .stop .extcntOutOfRange

/-- `EXT.VAL` (R183). The temporaries hold a value only in phase `P_EXTVAL` (R39), so they lose it here (log 8). -/
def execExtVal (s : State) : Outcome :=
  ((readPos s).bind fun p =>
   (readExtcnt s).bind fun c =>
   (readXtType s).bind fun t =>
   (readXtLen s).bind fun l =>
   (newPos (p + Config.extHdrLen + l.toNat)).bind fun q =>
   (commitExt s c t l (BitVec.ofNat 8 (p + Config.extHdrLen))).bind fun s' =>
   .val (State.setPc { s' with xtType := none, xtLen := none } .scan q (BitVec.ofNat 2 (c + 1)))).finish s fun s' => s'

/-- `AUTH.LD` (R184): the key identifier, the sixteen digest bytes, the flag. -/
def execAuthLd (s : State) : Outcome :=
  ((readPos s).bind fun p =>
   (readU32 s p).bind fun k =>
   (readDigest s (p + Config.keyIdLen)).bind fun d =>
   (newPos (p + Config.authLen)).bind fun q => .val (k, d, q)).finish s fun r =>
    State.setPhasePos
      (setAuthValid { s with pkt := { s.pkt with keyId := some r.1, digest := some r.2.1 } }) .fin r.2.2

/-- `FIN.CHK` (R185). -/
def execFinChk (s : State) : Outcome :=
  ((remaining s).bind fun rem => Eff.check (decide (rem = 0)) (.trailingGarbage rem)).finish s fun _ =>
    completeOk { s with resid := some 0 }

end Sys2Proof.Machine
end

