-- ==== Sys2Proof/Machine/Header.lean ====
section
/-! DEFINITION. The header unpacker (spec 41_header_unpack R150 to R158): one definition per step. -/

namespace Sys2Proof.Machine

/-- `CHK.HDR12` (R151). -/
def execChkHdr12 (s : State) : Outcome :=
  (Eff.check (decide (Config.hdrMin ≤ s.len.toNat)) (.truncated Config.hdrMin s.len.toNat)).finish s fun _ =>
    s.setPc .b0 0 0

/-- `UNPK.B0` (R152). -/
def execUnpkB0 (s : State) : Outcome :=
  (readU8 s 0).finish s fun b =>
    State.setPc
      { s with pkt := { s.pkt with leap := some (b0Leap b), version := some (b0Version b), mode := some (b0Mode b) } }
      .stratum 1 0

/-- `LD.STRATUM` (R153). -/
def execLdStratum (s : State) : Outcome :=
  (readU8 s 1).finish s fun b => State.setPc { s with pkt := { s.pkt with stratum := some b } } .poll 2 0

/-- `LD.POLL` (R154). -/
def execLdPoll (s : State) : Outcome :=
  (readU8 s 2).finish s fun b => State.setPc { s with pkt := { s.pkt with poll := some b } } .prec 3 0

/-- `LD.PREC` (R155): the 8 bits as received; the signed value is a reading (`Readings.lean`). -/
def execLdPrec (s : State) : Outcome :=
  (readU8 s 3).finish s fun b => State.setPc { s with pkt := { s.pkt with precision := some b } } .rdelay 4 0

/-- `LD.RDELAY` (R156): the raw Q16.16 word. -/
def execLdRdelay (s : State) : Outcome :=
  (readU32 s 4).finish s fun w => State.setPc { s with pkt := { s.pkt with rootDelay := some w } } .rdisp 8 0

/-- `LD.RDISP` (R157): the raw Q16.16 word. -/
def execLdRdisp (s : State) : Outcome :=
  (readU32 s 8).finish s fun w => State.setPc { s with pkt := { s.pkt with rootDisp := some w } } .refid 12 0

/-- `LD.REFID` (R158): its own length check, then the opaque word. -/
def execLdRefid (s : State) : Outcome :=
  ((Eff.check (decide (16 ≤ s.len.toNat)) (.truncated 16 s.len.toNat)).bind fun _ => readU32 s 12).finish s fun w =>
    State.setPc { s with pkt := { s.pkt with refId := some w } } .tsref 16 0

end Sys2Proof.Machine
end

