-- ==== Sys2Proof/Machine/ModeEnum.lean ====
section
/-! DEFINITION. The eight ENUM rows (spec 30_encoding R98, R111): names of values of `MODE`, "not an operation" in the
table's words. Nothing in the spec is done by one, so each leaves the state as it is (log 11). What the rows say, the
number of each variant, is `modeVariant` and `modeBits` (Decode.lean). -/

namespace Sys2Proof.Machine

/-- `MODE.Reserved` (R98, value 0). -/
def execModeReserved (s : State) : Outcome := .next s
/-- `MODE.SymmetricActive` (R98, value 1). -/
def execModeSymmetricActive (s : State) : Outcome := .next s
/-- `MODE.SymmetricPassive` (R98, value 2). -/
def execModeSymmetricPassive (s : State) : Outcome := .next s
/-- `MODE.Client` (R98, value 3). -/
def execModeClient (s : State) : Outcome := .next s
/-- `MODE.Server` (R98, value 4). -/
def execModeServer (s : State) : Outcome := .next s
/-- `MODE.Broadcast` (R98, value 5). -/
def execModeBroadcast (s : State) : Outcome := .next s
/-- `MODE.Control` (R98, value 6). -/
def execModeControl (s : State) : Outcome := .next s
/-- `MODE.ReservedPrivate` (R98, value 7). -/
def execModeReservedPrivate (s : State) : Outcome := .next s

end Sys2Proof.Machine
end

