-- ==== Sys2Proof/Machine/Timestamp.lean ====
section
/-! DEFINITION. The timestamp codec (spec 40_timestamp_codec): the commands TS.DEC (R132) and TS.ENC (R133), the steps
TS.REF to TS.XMT (R135 to R138). -/

namespace Sys2Proof.Machine

/-- `ts_decode(pc.pos)` with the new position `pc.pos + 8` (R135 to R138). -/
def tsAtPos (s : State) : Eff (Timestamp × BitVec 8) :=
  (readPos s).bind fun p =>
  (tsDecode s p).bind fun t =>
  (newPos (p + Config.tsLen)).bind fun q => .val (t, q)

/-- `TS.REF` (R135). -/
def execTsRef (s : State) : Outcome :=
  (tsAtPos s).finish s fun r =>
    State.setPhasePos
      { s with pkt := { s.pkt with refTsSec := some r.1.seconds, refTsFrac := some r.1.fraction } } .tsorg r.2

/-- `TS.ORG` (R136). -/
def execTsOrg (s : State) : Outcome :=
  (tsAtPos s).finish s fun r =>
    State.setPhasePos
      { s with pkt := { s.pkt with orgTsSec := some r.1.seconds, orgTsFrac := some r.1.fraction } } .tsrcv r.2

/-- `TS.RCV` (R137). -/
def execTsRcv (s : State) : Outcome :=
  (tsAtPos s).finish s fun r =>
    State.setPhasePos
      { s with pkt := { s.pkt with rcvTsSec := some r.1.seconds, rcvTsFrac := some r.1.fraction } } .tsxmt r.2

/-- `TS.XMT` (R138). -/
def execTsXmt (s : State) : Outcome :=
  (tsAtPos s).finish s fun r =>
    State.setPhasePos
      { s with pkt := { s.pkt with xmtTsSec := some r.1.seconds, xmtTsFrac := some r.1.fraction } } .scan r.2

/-- The action of `TS.DEC` after the START action (R132). The flags are `novalue` at its end (R40, R132; log 7). -/
def tsDecAction (s : State) : Outcome :=
  (tsDecode s s.off.toNat).finish s fun t =>
    completeOk (loseFlags { s with tsdSec := some t.seconds, tsdFrac := some t.fraction })

/-- The action of `TS.ENC` after the START action (R133): two `MemWrite`s to `OUT`. Flags as for TS.DEC (R40; log 7). -/
def tsEncAction (s : State) : Outcome :=
  .next (completeOk (loseFlags
    { s with out := memWrite (memWrite s.out 0 4 s.tsInSec.toNat) 4 4 s.tsInFrac.toNat }))

/-- `TS.DEC` (R132) at START: one transition (R13, R290; log 6). -/
def execTsDec (s : State) : Outcome := onStart s tsDecAction

/-- `TS.ENC` (R133) at START: one transition (R13, R290; log 6). -/
def execTsEnc (s : State) : Outcome := onStart s tsEncAction

end Sys2Proof.Machine
end

