-- ==== Sys2Proof/Machine/Dispatch.lean ====
section
/-! DEFINITION. exec: one arm per constructor of Instr, each one call of a meaning. -/

namespace Sys2Proof.Machine

def exec (i : Instr) (s : State) : Host.Outcome State Fault Refusal :=
  match i with
  | .nop => Sys2Proof.Machine.execNop s
  | .pktDec => Sys2Proof.Machine.execPktDec s
  | .tsDec => Sys2Proof.Machine.execTsDec s
  | .tsEnc => Sys2Proof.Machine.execTsEnc s
  | .chkHdr12 => Sys2Proof.Machine.execChkHdr12 s
  | .unpkB0 => Sys2Proof.Machine.execUnpkB0 s
  | .ldStratum => Sys2Proof.Machine.execLdStratum s
  | .ldPoll => Sys2Proof.Machine.execLdPoll s
  | .ldPrec => Sys2Proof.Machine.execLdPrec s
  | .ldRdelay => Sys2Proof.Machine.execLdRdelay s
  | .ldRdisp => Sys2Proof.Machine.execLdRdisp s
  | .ldRefid => Sys2Proof.Machine.execLdRefid s
  | .tsRef => Sys2Proof.Machine.execTsRef s
  | .tsOrg => Sys2Proof.Machine.execTsOrg s
  | .tsRcv => Sys2Proof.Machine.execTsRcv s
  | .tsXmt => Sys2Proof.Machine.execTsXmt s
  | .extScan => Sys2Proof.Machine.execExtScan s
  | .extHdr => Sys2Proof.Machine.execExtHdr s
  | .extVal => Sys2Proof.Machine.execExtVal s
  | .authLd => Sys2Proof.Machine.execAuthLd s
  | .finChk => Sys2Proof.Machine.execFinChk s
  | .modeReserved => Sys2Proof.Machine.execModeReserved s
  | .modeSymmetricActive => Sys2Proof.Machine.execModeSymmetricActive s
  | .modeSymmetricPassive => Sys2Proof.Machine.execModeSymmetricPassive s
  | .modeClient => Sys2Proof.Machine.execModeClient s
  | .modeServer => Sys2Proof.Machine.execModeServer s
  | .modeBroadcast => Sys2Proof.Machine.execModeBroadcast s
  | .modeControl => Sys2Proof.Machine.execModeControl s
  | .modeReservedPrivate => Sys2Proof.Machine.execModeReservedPrivate s

end Sys2Proof.Machine
end

