-- ==== Sys2Proof/Machine/Select.lean ====
section
/-! DEFINITION. What selects a move, and the move it selects (spec 00_scope R13, 30_encoding R111): the phase for the
engine, the `CMD` code for the START event (43_sequencer_commands R210). -/

namespace Sys2Proof.Machine

/-- What a START selects: the `CMD` code (R23, R105). -/
def State.startSelector (s : State) : Selector := .cmd s.cmd

/-- What selects the next move: while BUSY the engine's phase. Otherwise NPD has no move of its own (R13, R267) and stays
until a START (R213): the next move is the START event (log 5). -/
def State.selector (s : State) : Selector := if s.status = .busy then .phase s.pc.phase else s.startSelector

/-- Run the instruction a selector decodes to; `P_IDLE` has no step (R213). -/
def runSelected (sel : Selector) (s : State) : Outcome :=
  match (decode sel).toOption with
  | some i => exec i s
  | none => .next s

/-- The host raises START (R210, R23). While BUSY the command's meaning ignores it (R216, `onStart`). -/
def startEvent (s : State) : Outcome := runSelected s.startSelector s

end Sys2Proof.Machine
end

