-- ==== Sys2Proof/Machine/Step.lean ====
section
/-! DEFINITION. One step of the machine (spec 00_scope R13, 43_sequencer_commands R210, R213): while BUSY the engine's
move, otherwise the START event, the only thing that moves an idle NPD (log 5). -/

namespace Sys2Proof.Machine

/-- One step. -/
def step (s : State) : Host.Outcome State Fault Refusal := runSelected s.selector s

/-- The same instruction put where `step` takes its next one, in a machine that is not BUSY for a word of the host: a
`CMD` word is written to `CMD`; a byte of format ENUM, which selects no move, is put in `BUF[0]` with `CMD` at NOP
(log 5, log 12). -/
def State.withFetchWord (s : State) (nbits w : Nat) : State :=
  match wordSelector nbits w with
  | .ok (.cmd code) => { s with cmd := code, status := if s.status = .busy then .idle else s.status }
  | .ok (.modeByte b) =>
    { s with buf := bufWrite s.buf 0 b, cmd := 0b00, status := if s.status = .busy then .idle else s.status }
  | .ok (.phase p) => { s.setPhase p with status := .busy }
  | .error _ => s

end Sys2Proof.Machine
end

