-- ==== Sys2Proof/Machine/Registers.lean ====
section
/-! DEFINITION. The numbered registers of NPD (spec 10_state R43), their widths and contents, and the host's reads of
them and of the two memories (R45, R40, R219, 70 R284, R285). -/

namespace Sys2Proof.Machine

/-- The registers of R43, each under its own name; `digest w` is word `w` of `DIGEST`. -/
inductive Reg where
  | len | cmd | off | tsInSec | tsInFrac
  | status | errKind | errNeed | errHave | errN | resid
  | leap | version | mode | stratum | poll | precision | rootDelay | rootDisp | refId
  | refTsSec | refTsFrac | orgTsSec | orgTsFrac | rcvTsSec | rcvTsFrac | xmtTsSec | xmtTsFrac
  | ext1Valid | ext1Type | ext1Len | ext1Off
  | ext2Valid | ext2Type | ext2Len | ext2Off
  | authValid | keyId | digest (w : Fin 4)
  | tsdSec | tsdFrac
deriving DecidableEq, Repr

/-- The register's number, a label (R43). -/
def Reg.number : Reg → Nat
  | .len => 0 | .cmd => 1 | .off => 2 | .tsInSec => 3 | .tsInFrac => 4
  | .status => 5 | .errKind => 6 | .errNeed => 7 | .errHave => 8 | .errN => 9 | .resid => 10
  | .leap => 11 | .version => 12 | .mode => 13 | .stratum => 14 | .poll => 15 | .precision => 16
  | .rootDelay => 17 | .rootDisp => 18 | .refId => 19
  | .refTsSec => 20 | .refTsFrac => 21 | .orgTsSec => 22 | .orgTsFrac => 23
  | .rcvTsSec => 24 | .rcvTsFrac => 25 | .xmtTsSec => 26 | .xmtTsFrac => 27
  | .ext1Valid => 28 | .ext1Type => 29 | .ext1Len => 30 | .ext1Off => 31
  | .ext2Valid => 32 | .ext2Type => 33 | .ext2Len => 34 | .ext2Off => 35
  | .authValid => 36 | .keyId => 37 | .digest w => 38 + w.val
  | .tsdSec => 42 | .tsdFrac => 43

/-- The register's width in bits (R43). -/
def Reg.width : Reg → Nat
  | .len => 8 | .cmd => 2 | .off => 8 | .tsInSec => 32 | .tsInFrac => 32
  | .status => 2 | .errKind => 2 | .errNeed => 16 | .errHave => 16 | .errN => 16 | .resid => 8
  | .leap => 2 | .version => 3 | .mode => 3 | .stratum => 8 | .poll => 8 | .precision => 8
  | .rootDelay => 32 | .rootDisp => 32 | .refId => 32
  | .refTsSec => 32 | .refTsFrac => 32 | .orgTsSec => 32 | .orgTsFrac => 32
  | .rcvTsSec => 32 | .rcvTsFrac => 32 | .xmtTsSec => 32 | .xmtTsFrac => 32
  | .ext1Valid => 1 | .ext1Type => 16 | .ext1Len => 16 | .ext1Off => 8
  | .ext2Valid => 1 | .ext2Type => 16 | .ext2Len => 16 | .ext2Off => 8
  | .authValid => 1 | .keyId => 32 | .digest _ => 32
  | .tsdSec => 32 | .tsdFrac => 32

/-- Word `w` of the digest: `DIGEST[4w] ++ DIGEST[4w+1] ++ DIGEST[4w+2] ++ DIGEST[4w+3]` (R43). -/
def digestWord (d : Vector Byte 16) (w : Fin 4) : Word :=
  d[4 * w.val] ++ d[4 * w.val + 1] ++ d[4 * w.val + 2] ++ d[4 * w.val + 3]

/-- The register's content, none where it is `novalue` (R11). -/
def Reg.value (s : State) : (r : Reg) → Option (BitVec r.width)
  | .len => some s.len
  | .cmd => some s.cmd
  | .off => some s.off
  | .tsInSec => some s.tsInSec
  | .tsInFrac => some s.tsInFrac
  | .status => some s.status.code
  | .errKind => some s.errKind.code
  | .errNeed => s.errNeed
  | .errHave => s.errHave
  | .errN => s.errN
  | .resid => s.resid
  | .leap => s.pkt.leap
  | .version => s.pkt.version
  | .mode => s.pkt.mode
  | .stratum => s.pkt.stratum
  | .poll => s.pkt.poll
  | .precision => s.pkt.precision
  | .rootDelay => s.pkt.rootDelay
  | .rootDisp => s.pkt.rootDisp
  | .refId => s.pkt.refId
  | .refTsSec => s.pkt.refTsSec
  | .refTsFrac => s.pkt.refTsFrac
  | .orgTsSec => s.pkt.orgTsSec
  | .orgTsFrac => s.pkt.orgTsFrac
  | .rcvTsSec => s.pkt.rcvTsSec
  | .rcvTsFrac => s.pkt.rcvTsFrac
  | .xmtTsSec => s.pkt.xmtTsSec
  | .xmtTsFrac => s.pkt.xmtTsFrac
  | .ext1Valid => s.ext1Valid.map BitVec.ofBool
  | .ext1Type => s.pkt.ext1Type
  | .ext1Len => s.pkt.ext1Len
  | .ext1Off => s.pkt.ext1Off
  | .ext2Valid => s.ext2Valid.map BitVec.ofBool
  | .ext2Type => s.pkt.ext2Type
  | .ext2Len => s.pkt.ext2Len
  | .ext2Off => s.pkt.ext2Off
  | .authValid => s.authValid.map BitVec.ofBool
  | .keyId => s.pkt.keyId
  | .digest w => s.pkt.digest.map fun d => digestWord d w
  | .tsdSec => s.tsdSec
  | .tsdFrac => s.tsdFrac

/-- The host reads a register: STATUS at any time, the others when not BUSY (R284), never a `novalue` one (R11, R285). -/
def hostReadReg (s : State) (r : Reg) : Except Refusal (BitVec r.width) :=
  if s.status = .busy ∧ r ≠ .status then .error .hostReadWhileBusy
  else
    match r.value s with
    | some v => .ok v
    | none => .error .hostReadNoValue

/-- The host reads `BUF[i]`, 7-bit index (R45, R60). -/
def hostReadBuf (s : State) (i : BitVec 7) : Except Refusal Byte :=
  if s.status = .busy then .error .hostReadWhileBusy else .ok (bufRead s.buf i.toNat)

/-- The host reads `OUT[i]` (R45, R37, U17). -/
def hostReadOut (s : State) (i : BitVec 3) : Except Refusal Byte :=
  if s.status = .busy then .error .hostReadWhileBusy
  else
    match outRead s.out i.toNat with
    | some b => .ok b
    | none => .error .hostReadNoValue

end Sys2Proof.Machine
end

