-- ==== Sys2Proof/Machine/HostMoves.lean ====
section
/-! DEFINITION. The host's moves (spec 00_scope R13a, 10_state R45) and the reset event (70_reset_and_hazards R280, R281). -/

namespace Sys2Proof.Machine

/-- What the environment leaves in the unspecified state at a reset (R44, R281): the bytes of `BUF` and three operands.
An argument of the event, so that nothing constrains it (log 14). -/
structure Residue where
  bytes : List Byte
  off : BitVec 8
  tsInSec : Word
  tsInFrac : Word
deriving DecidableEq, Repr

/-- The host's moves (R13a). -/
inductive HostMove where
  | writeBuf (i : BitVec 7) (b : Byte)
  | writeLen (v : BitVec 8)
  | writeCmd (v : BitVec 2)
  | writeOff (v : BitVec 8)
  | writeTsInSec (v : Word)
  | writeTsInFrac (v : Word)
  | raiseStart
  | readReg (r : Reg)
  | readBuf (i : BitVec 7)
  | readOut (i : BitVec 3)
  | reset (left : Residue)
deriving DecidableEq, Repr

/-- The state after a reset event (R280): the table of R44, with what the environment left (R281). -/
def applyReset (left : Residue) : State :=
  { State.reset with
    buf := bufLoad [] 0 (left.bytes.take Config.bufSize)
    off := left.off
    tsInSec := left.tsInSec
    tsInFrac := left.tsInFrac }

/-- A host write: the host has none while BUSY (R71d, R283, U5). -/
def hostWrite (s s' : State) : Outcome := if s.status = .busy then .refused .hostWriteWhileBusy else .next s'

/-- A host read changes nothing (R68, R219). -/
def hostReadMove {α : Type} (s : State) (r : Except Refusal α) : Outcome :=
  match r with
  | .ok _ => .next s
  | .error e => .refused e

/-- One host move. START is raised and taken in the one transition (R210, log 17). -/
def hostMove (m : HostMove) (s : State) : Outcome :=
  match m with
  | .writeBuf i b => hostWrite s { s with buf := bufWrite s.buf i.toNat b }
  | .writeLen v => hostWrite s { s with len := v }
  | .writeCmd v => hostWrite s { s with cmd := v }
  | .writeOff v => hostWrite s { s with off := v }
  | .writeTsInSec v => hostWrite s { s with tsInSec := v }
  | .writeTsInFrac v => hostWrite s { s with tsInFrac := v }
  | .raiseStart => startEvent s
  | .readReg r => hostReadMove s (hostReadReg s r)
  | .readBuf i => hostReadMove s (hostReadBuf s i)
  | .readOut i => hostReadMove s (hostReadOut s i)
  | .reset left => .next (applyReset left)

/-- Host moves one after another, stopping at the first that is not a next state. -/
def hostMoves : List HostMove → State → Outcome
  | [], s => .next s
  | m :: ms, s =>
    match hostMove m s with
    | .next t => hostMoves ms t
    | .fault f => .fault f
    | .refused r => .refused r

/-- The moves that write a byte string to `BUF` from index `a` on. -/
def writeBytes (a : Nat) : List Byte → List HostMove
  | [] => []
  | b :: bs => .writeBuf (BitVec.ofNat 7 a) b :: writeBytes (a + 1) bs

/-- The moves of a command written in the listing notation (R106, R282): its operands, its code, START. -/
def CommandLine.moves : CommandLine → List HostMove
  | .nop => [.writeCmd 0b00, .raiseStart]
  | .pktDec => [.writeCmd 0b01, .raiseStart]
  | .tsDec off => [.writeOff off, .writeCmd 0b10, .raiseStart]
  | .tsEnc sec frac => [.writeTsInSec sec, .writeTsInFrac frac, .writeCmd 0b11, .raiseStart]

/-- The moves that submit a datagram (R255, R282): its bytes, its length, `PKT.DEC`, START. -/
def submitMoves (bytes : List Byte) : List HostMove :=
  writeBytes 0 bytes ++ .writeLen (BitVec.ofNat 8 bytes.length) :: CommandLine.moves .pktDec

end Sys2Proof.Machine
end

