-- ==== Sys2Proof/Machine/Readings.lean ====
section
/-! DEFINITION. Readings of the registers, which the spec gives a model and which are no operation of NPD: Q16.16 (spec
41_header_unpack R159, R160), the timestamp as a number (R139), the abstract packet and the decode error (R41, R45). -/

namespace Sys2Proof.Machine

/-- `q16_value(raw) = sint_32(raw) / 2^16`, exact (R159). -/
def q16Value (raw : Word) : Rat := (raw.toInt : Rat) / 65536

/-- `q16_encode(x) = floor(x · 2^16) mod 2^32` for `-32768 ≤ x < 32768`, not defined outside (R160, D15). -/
def q16Encode (x : Rat) : Option Word :=
  if -32768 ≤ x ∧ x < 32768 then some (BitVec.ofInt 32 (x * 65536).floor) else none

/-- `seconds + fraction / 2^32` (R139). -/
def tsValue (t : Timestamp) : Rat := (t.seconds.toNat : Rat) + (t.fraction.toNat : Rat) / 4294967296

/-- The stratum classes of R100, a reading of the stored byte. -/
inductive StratumClass where
  | unspecified | primary | secondary | reservedInvalid
deriving DecidableEq, Repr

/-- The class of a stratum (R100). -/
def stratumClass (s : Byte) : StratumClass :=
  if s.toNat = 0 then .unspecified
  else if s.toNat = 1 then .primary
  else if s.toNat < 16 then .secondary
  else .reservedInvalid

/-- An extension field read through its descriptor (R41, R34): `some none` when absent, none where a register that
should hold a value does not. -/
def extOf (buf : Memory) (valid : Option Bool) (t l : Option Half) (o : Option Byte) : Option (Option ExtField) :=
  match valid, t, l, o with
  | some false, _, _, _ => some none
  | some true, some t, some l, some o => some (some ⟨t, l, bufBytes buf o.toNat l.toNat⟩)
  | _, _, _, _ => none

/-- The authentication trailer read from its registers (R41). -/
def authOf (valid : Option Bool) (k : Option Word) (d : Option (Vector Byte 16)) : Option (Option AuthTrailer) :=
  match valid, k, d with
  | some false, _, _ => some none
  | some true, some k, some d => some (some ⟨k, d⟩)
  | _, _, _ => none

/-- A timestamp read from its two registers. -/
def tsOf (sec frac : Option Word) : Option Timestamp :=
  match sec, frac with
  | some s, some f => some ⟨s, f⟩
  | _, _ => none

/-- The abstract `Packet` of a state in which STATUS is OK after a `PKT.DEC` (R41). -/
def State.packet (s : State) : Option Packet := do
  let leap ← s.pkt.leap
  let version ← s.pkt.version
  let mode ← s.pkt.mode
  let stratum ← s.pkt.stratum
  let poll ← s.pkt.poll
  let precision ← s.pkt.precision
  let rootDelay ← s.pkt.rootDelay
  let rootDisp ← s.pkt.rootDisp
  let refId ← s.pkt.refId
  let refTs ← tsOf s.pkt.refTsSec s.pkt.refTsFrac
  let orgTs ← tsOf s.pkt.orgTsSec s.pkt.orgTsFrac
  let rcvTs ← tsOf s.pkt.rcvTsSec s.pkt.rcvTsFrac
  let xmtTs ← tsOf s.pkt.xmtTsSec s.pkt.xmtTsFrac
  let ext1 ← extOf s.buf s.ext1Valid s.pkt.ext1Type s.pkt.ext1Len s.pkt.ext1Off
  let ext2 ← extOf s.buf s.ext2Valid s.pkt.ext2Type s.pkt.ext2Len s.pkt.ext2Off
  let auth ← authOf s.authValid s.pkt.keyId s.pkt.digest
  return { leap, version, mode := modeVariant mode, stratum, poll, precision := precision.toInt,
           rootDelay, rootDisp, refId, refTs, orgTs, rcvTs, xmtTs, ext1, ext2, auth }

/-- The decode error the error registers name (R41, R241). -/
def State.decodeError (s : State) : Option DecodeError :=
  match s.errKind, s.errNeed, s.errHave, s.errN with
  | .truncated, some n, some h, _ => some (.truncated n.toNat h.toNat)
  | .malformedExtension, _, _, _ => some .malformedExtension
  | .trailingGarbage, _, _, some n => some (.trailingGarbage n.toNat)
  | _, _, _, _ => none

/-- The outcome of a `PKT.DEC` that has ended (R13, R41): the packet or the error, none before the end. -/
def State.result (s : State) : Option (Except DecodeError Packet) :=
  match s.status with
  | .ok => s.packet.map .ok
  | .err => s.decodeError.map .error
  | .idle => none
  | .busy => none

end Sys2Proof.Machine
end

