-- ==== Sys2Proof/Machine/Validator.lean ====
section
/-! DEFINITION. The host's Validator (spec 60_exceptions R259 to R264): host software outside NPD (R4), a function of three
registers; it sets no NPD register (R264). -/

namespace Sys2Proof.Machine

/-- What the Validator decides (R259, R261). -/
inductive Verdict where
  | accepted
  | rejectedUnsupportedMode (m : ModeVariant)
deriving DecidableEq, Repr

/-- Advisory diagnostics, which never reject (R260, R262). -/
inductive Advisory where
  | versionMismatch
  | stratum
deriving DecidableEq, Repr

/-- The mode check (R261), the only one that rejects. -/
def modeCheck (m : ModeVariant) : Verdict := if m = .client then .accepted else .rejectedUnsupportedMode m

/-- The version check (R260) and the stratum check (R262): the advisories they add, in that order. -/
def advisories (version : BitVec 3) (stratum : Byte) : List Advisory :=
  (if version.toNat = Config.supportedVersion then [] else [.versionMismatch])
    ++ (if Config.maxStrat < stratum.toNat then [.stratum] else [])

/-- `validate(Packet)` (R259, R263): the verdict, and the advisories whatever it is. -/
def validate (p : Packet) : Verdict × List Advisory := (modeCheck p.mode, advisories p.version p.stratum)

end Sys2Proof.Machine
end

