-- ==== Sys2Proof/Machine/ReceiveLoop.lean ====
section
/-! DEFINITION. The host's Receive Loop (spec 60_exceptions R253 to R258, R268), host software outside NPD (R4): Receiving,
Decoding, Validating, Reporting, once per datagram. -/

namespace Sys2Proof.Machine

/-- What the receive primitive delivers: the sender, which NPD never sees (R265), and the datagram as sent. -/
structure Received where
  source : Nat
  bytes : List Byte
deriving DecidableEq, Repr

/-- The one report of a pass (R257, R268): an NPD error, or the packet with the Validator's verdict and advisories. -/
inductive ReportBody where
  | decodeError (e : DecodeError)
  | packet (p : Packet) (v : Verdict) (advs : List Advisory)
deriving DecidableEq, Repr

/-- A report: the sender, the warning that the datagram was cut to the buffer (R254), the outcome. -/
structure Report where
  source : Nat
  cutWarning : Bool
  body : ReportBody
deriving DecidableEq, Repr

/-- The most engine moves of a run (R13, R189). -/
def maxSteps : Nat := 21

/-- The engine's moves (R13): at most `k` steps, none once STATUS is not BUSY. -/
def engineMoves : Nat → State → Outcome
  | 0, s => .next s
  | k + 1, s =>
    if s.status = .busy then
      match step s with
      | .next t => engineMoves k t
      | .fault f => .fault f
      | .refused r => .refused r
    else .next s

/-- The engine runs an accepted command to its end (R13, R212). -/
def runCommand (s : State) : Outcome := engineMoves maxSteps s

/-- Validating and Reporting (R256, R257): no Validator run on an error (R253). -/
def reportBody : Except DecodeError Packet → ReportBody
  | .error e => .decodeError e
  | .ok p => .packet p (validate p).1 (validate p).2

/-- One pass of the loop on one datagram (R254 to R257); none if the machine answers no outcome. -/
def receiveOne (r : Received) (s : State) : Option (State × Report) :=
  match hostMoves (submitMoves (r.bytes.take Config.bufSize)) s with
  | .next s1 =>
    match runCommand s1 with
    | .next t =>
      match t.result with
      | some res => some (t, ⟨r.source, decide (Config.bufSize < r.bytes.length), reportBody res⟩)
      | none => none
    | .fault _ => none
    | .refused _ => none
  | .fault _ => none
  | .refused _ => none

/-- The loop over a sequence of datagrams (R253, R258): a decode error does not end it. -/
def receiveLoop : List Received → State → Option (State × List Report)
  | [], s => some (s, [])
  | r :: rs, s =>
    match receiveOne r s with
    | none => none
    | some (t, rep) =>
      match receiveLoop rs t with
      | none => none
      | some (u, reps) => some (u, rep :: reps)

end Sys2Proof.Machine
end

