-- ==== Sys2Proof/Machine/PktDecode.lean ====
section
/-! DEFINITION. The command-level function `pkt_decode(buf, len)` (spec 43_sequencer_commands R218), written from its own
text and apart from the steps, so that the step machine can be compared with it. `len` is the length of the list. -/

namespace Sys2Proof.Machine

/-- `buf[a .. a+n)`. -/
def slice (buf : List Byte) (a n : Nat) : List Byte := (buf.drop a).take n

/-- `buf[a]`. -/
def byteAt (buf : List Byte) (a : Nat) : Byte := buf.getD a 0

/-- Big-endian read of 2 bytes (R218). -/
def be16 (buf : List Byte) (a : Nat) : Half := BitVec.ofNat 16 (beNat (slice buf a 2))

/-- Big-endian read of 4 bytes (R218). -/
def be32 (buf : List Byte) (a : Nat) : Word := BitVec.ofNat 32 (beNat (slice buf a 4))

/-- The pair of big-endian words at `a`. -/
def tsAt (buf : List Byte) (a : Nat) : Timestamp := ⟨be32 buf a, be32 buf (a + 4)⟩

/-- The loop of R218, `k` extension fields still allowed: the fields read and the position after them. -/
def parseExts (buf : List Byte) : Nat → Nat → Except DecodeError (List ExtField × Nat)
  | 0, pos => .ok ([], pos)
  | k + 1, pos =>
    let rem := buf.length - pos
    if rem = 0 ∨ rem = 20 ∨ rem < 4 then .ok ([], pos)
    else
      let l := be16 buf (pos + 2)
      if l.toNat < 4 ∨ rem - 4 < l.toNat then .error .malformedExtension
      else
        match parseExts buf k (pos + 4 + l.toNat) with
        | .error e => .error e
        | .ok (fs, p) => .ok (⟨be16 buf pos, l, slice buf (pos + 4) l.toNat⟩ :: fs, p)

/-- The trailer of R218: the last 20 bytes when exactly 20 remain. -/
def parseAuth (buf : List Byte) (pos : Nat) : Option AuthTrailer :=
  if buf.length - pos = 20 then
    some ⟨be32 buf pos, Vector.ofFn fun i => byteAt buf (pos + 4 + i.val)⟩
  else none

/-- `need` of the first failing length check of the 48-byte header, in program order (R218). -/
def headerNeed (len : Nat) : Option Nat :=
  if len < 12 then some 12
  else if len < 16 then some 16
  else if len < 24 then some 24
  else if len < 32 then some 32
  else if len < 40 then some 40
  else if len < 48 then some 48
  else none

/-- The packet of R218 from the header and the sections after it. -/
def mkPacket (buf : List Byte) (exts : List ExtField) (auth : Option AuthTrailer) : Packet where
  leap := b0Leap (byteAt buf 0)
  version := b0Version (byteAt buf 0)
  mode := modeVariant (b0Mode (byteAt buf 0))
  stratum := byteAt buf 1
  poll := byteAt buf 2
  precision := (byteAt buf 3).toInt
  rootDelay := be32 buf 4
  rootDisp := be32 buf 8
  refId := be32 buf 12
  refTs := tsAt buf 16
  orgTs := tsAt buf 24
  rcvTs := tsAt buf 32
  xmtTs := tsAt buf 40
  ext1 := exts[0]?
  ext2 := exts[1]?
  auth := auth

/-- `pkt_decode` (R218). -/
def pktDecode (buf : List Byte) : Except DecodeError Packet :=
  match headerNeed buf.length with
  | some need => .error (.truncated need buf.length)
  | none =>
    match parseExts buf 2 48 with
    | .error e => .error e
    | .ok (exts, pos) =>
      if buf.length - pos = 0 ∨ buf.length - pos = 20 then .ok (mkPacket buf exts (parseAuth buf pos))
      else .error (.trailingGarbage (buf.length - pos))

end Sys2Proof.Machine
end

