-- ==== Sys2Proof/Safety.lean ====
section
/-! DEFINITION. What a safe state is: the invariants I1 to I7 (spec 10_state R42) while a PKT.DEC runs, the table of which
registers hold a value (R40) otherwise, and the canonical form of the memories. -/

namespace Sys2Proof.Machine

/-- How many header steps have run when a phase is entered (R213); the tail phases come after all twelve. -/
def phaseRank : Phase → Nat
  | .idle => 0
  | .chk => 0
  | .b0 => 1
  | .stratum => 2
  | .poll => 3
  | .prec => 4
  | .rdelay => 5
  | .rdisp => 6
  | .refid => 7
  | .tsref => 8
  | .tsorg => 9
  | .tsrcv => 10
  | .tsxmt => 11
  | .scan => 12
  | .exthdr => 12
  | .extval => 12
  | .auth => 12
  | .fin => 12

/-- `pc.pos` on entry to a header phase (R213); none for the tail phases, whose position depends on the datagram. -/
def headerPos : Phase → Option Nat
  | .idle => none
  | .chk => some 0
  | .b0 => some 0
  | .stratum => some 1
  | .poll => some 2
  | .prec => some 3
  | .rdelay => some 4
  | .rdisp => some 8
  | .refid => some 12
  | .tsref => some 16
  | .tsorg => some 24
  | .tsrcv => some 32
  | .tsxmt => some 40
  | .scan => none
  | .exthdr => none
  | .extval => none
  | .auth => none
  | .fin => none

/-- Exactly the header registers whose step has run hold a value (R150, R161; each is written by exactly one step). -/
structure HeaderFilled (p : PacketRegs) (rank : Nat) : Prop where
  leap : p.leap.isSome = decide (1 < rank)
  version : p.version.isSome = decide (1 < rank)
  mode : p.mode.isSome = decide (1 < rank)
  stratum : p.stratum.isSome = decide (2 < rank)
  poll : p.poll.isSome = decide (3 < rank)
  precision : p.precision.isSome = decide (4 < rank)
  rootDelay : p.rootDelay.isSome = decide (5 < rank)
  rootDisp : p.rootDisp.isSome = decide (6 < rank)
  refId : p.refId.isSome = decide (7 < rank)
  refTsSec : p.refTsSec.isSome = decide (8 < rank)
  refTsFrac : p.refTsFrac.isSome = decide (8 < rank)
  orgTsSec : p.orgTsSec.isSome = decide (9 < rank)
  orgTsFrac : p.orgTsFrac.isSome = decide (9 < rank)
  rcvTsSec : p.rcvTsSec.isSome = decide (10 < rank)
  rcvTsFrac : p.rcvTsFrac.isSome = decide (10 < rank)
  xmtTsSec : p.xmtTsSec.isSome = decide (11 < rank)
  xmtTsFrac : p.xmtTsFrac.isSome = decide (11 < rank)

/-- A descriptor (R34): with its flag 1 it names offset `off` and length `l ≥ 4`; with its flag 0 it is `novalue`. -/
def DescriptorHolds (valid : Bool) (t l : Option Half) (o : Option Byte) (off len : Nat) : Prop :=
  if valid then
    t.isSome = true ∧ l = some (BitVec.ofNat 16 len) ∧ o = some (BitVec.ofNat 8 off) ∧ 4 ≤ len
  else t = none ∧ l = none ∧ o = none

/-- Bytes taken by the sections after the header (R42, I7). -/
def tailBytes (e1 e2 a : Bool) (l1 l2 : Nat) : Nat :=
  (if e1 then 4 + l1 else 0) + (if e2 then 4 + l2 else 0) + (if a then 20 else 0)

/-- The sections committed so far: flags, descriptors, trailer (R42 I3, I5, I6; R34, R35, R40). -/
structure SectionsHold (s : State) (e1 e2 a : Bool) (l1 l2 : Nat) : Prop where
  ext1Valid : s.ext1Valid = some e1
  ext2Valid : s.ext2Valid = some e2
  authValid : s.authValid = some a
  order : e2 = true → e1 = true
  ext1 : DescriptorHolds e1 s.pkt.ext1Type s.pkt.ext1Len s.pkt.ext1Off 52 l1
  ext2 : DescriptorHolds e2 s.pkt.ext2Type s.pkt.ext2Len s.pkt.ext2Off (52 + l1 + 4) l2
  keyId : s.pkt.keyId.isSome = a
  digest : s.pkt.digest.isSome = a

/-- What is known on entry to a tail phase (R181 to R185), `rem` bytes left and `c` fields committed. -/
def TailEntry (s : State) (rem c : Nat) (a : Bool) : Phase → Prop
  | .scan => a = false
  | .exthdr => a = false ∧ 4 ≤ rem ∧ rem ≠ 20 ∧ c ≤ 1
  | .extval => a = false ∧ c ≤ 1 ∧ s.xtType.isSome = true ∧ ∃ l, s.xtLen = some l ∧ 4 ≤ l.toNat ∧ l.toNat + 4 ≤ rem
  | .auth => a = false ∧ rem = 20
  | .fin => rem = 0 ∨ (a = false ∧ rem ≠ 20 ∧ ((rem ≤ 3 ∧ c ≤ 1) ∨ c = 2))
  | _ => a = false ∧ c = 0

/-- The invariants of R42 at position `p` with the sections `e1 e2 a l1 l2` committed, while a PKT.DEC runs. -/
structure ParseInv (s : State) (p l1 l2 : Nat) (e1 e2 a : Bool) : Prop where
  len_le : s.len.toNat ≤ 128
  pos : s.pc.pos = some (BitVec.ofNat 8 p)
  pos_le : p ≤ s.len.toNat
  extcnt : s.pc.extcnt = some (BitVec.ofNat 2 (e1.toNat + e2.toNat))
  sections : SectionsHold s e1 e2 a l1 l2
  header : HeaderFilled s.pkt (phaseRank s.pc.phase)
  len_ge : s.pc.phase ≠ .chk → 12 ≤ s.len.toNat
  place : p = (headerPos s.pc.phase).getD (48 + tailBytes e1 e2 a l1 l2)
  entry : TailEntry s (s.len.toNat - p) (e1.toNat + e2.toNat) a s.pc.phase
  temps : s.pc.phase ≠ .extval → s.xtType = none ∧ s.xtLen = none

/-- `ERR_KIND` is 0 and no error operand holds a value (R27). -/
def NoError (s : State) : Prop :=
  s.errKind = .noError ∧ s.errNeed = none ∧ s.errHave = none ∧ s.errN = none

/-- While BUSY (R210, R213): a phase is running, no outcome is recorded, the invariants of R42 hold. -/
def BusyHolds (s : State) : Prop :=
  s.pc.phase ≠ .idle ∧ NoError s ∧ s.resid = none ∧ s.tsdSec = none ∧ s.tsdFrac = none ∧ s.out = []
    ∧ ∃ p l1 l2 e1 e2 a, ParseInv s p l1 l2 e1 e2 a

/-- After reset (R40 row 1, R44). -/
def IdleHolds (s : State) : Prop :=
  NoError s ∧ s.resid = none ∧ s.tsdSec = none ∧ s.tsdFrac = none ∧ s.out = [] ∧ s.pkt = .novalue
    ∧ s.ext1Valid = some false ∧ s.ext2Valid = some false ∧ s.authValid = some false

/-- OK after PKT.DEC (R40 row 3): the header, the flags, the sections whose flag is 1, and `RESID = 0`. -/
def PktOkHolds (s : State) : Prop :=
  s.resid = some 0 ∧ s.tsdSec = none ∧ s.tsdFrac = none ∧ s.out = [] ∧ HeaderFilled s.pkt 12
    ∧ ∃ l1 l2 e1 e2 a, SectionsHold s e1 e2 a l1 l2 ∧ 48 + tailBytes e1 e2 a l1 l2 ≤ 128

/-- OK after TS.DEC (R40 row 4). -/
def TsDecOkHolds (s : State) : Prop :=
  s.resid = none ∧ s.tsdSec.isSome = true ∧ s.tsdFrac.isSome = true ∧ s.out = [] ∧ s.pkt = .novalue
    ∧ s.ext1Valid = none ∧ s.ext2Valid = none ∧ s.authValid = none

/-- OK after TS.ENC (R40 row 5). -/
def TsEncOkHolds (s : State) : Prop :=
  s.resid = none ∧ s.tsdSec = none ∧ s.tsdFrac = none ∧ (∀ i < 8, (outRead s.out i).isSome = true) ∧ s.pkt = .novalue
    ∧ s.ext1Valid = none ∧ s.ext2Valid = none ∧ s.authValid = none

/-- The operands that hold a value are those of the error's kind (R27, R245), with `need > have` (R242) and
`1 ≤ n ≤ 64` (R244). -/
def ErrOperandsHold (s : State) : Prop :=
  match s.errKind with
  | .noError => False
  | .truncated => ∃ n h, s.errNeed = some n ∧ s.errHave = some h ∧ s.errN = none ∧ h.toNat < n.toNat
  | .malformedExtension => s.errNeed = none ∧ s.errHave = none ∧ s.errN = none
  | .trailingGarbage => ∃ n, s.errN = some n ∧ s.errNeed = none ∧ s.errHave = none ∧ 1 ≤ n.toNat ∧ n.toNat ≤ 64

/-- ERR (R40 row 6): the kind and its operands, nothing else the engine writes. -/
def ErrHolds (s : State) : Prop :=
  ErrOperandsHold s ∧ s.resid = none ∧ s.tsdSec = none ∧ s.tsdFrac = none ∧ s.out = [] ∧ s.pkt = .novalue
    ∧ s.ext1Valid = none ∧ s.ext2Valid = none ∧ s.authValid = none

/-- No command runs: the parse position is idle and the temporaries hold no value (R38, R39). -/
def QuietHolds (s : State) : Prop := s.pc.phase = .idle ∧ s.xtType = none ∧ s.xtLen = none

/-- The table of R40 with the invariants of R42. -/
def StatusHolds (s : State) : Prop :=
  match s.status with
  | .busy => BusyHolds s
  | .idle => QuietHolds s ∧ IdleHolds s
  | .ok => QuietHolds s ∧ NoError s ∧ (PktOkHolds s ∨ TsDecOkHolds s ∨ TsEncOkHolds s)
  | .err => QuietHolds s ∧ ErrHolds s

/-- The invariant of the machine: both memories canonical, and what R40 and R42 say of the status it is in. -/
def Inv (s : State) : Prop := Memory.wf s = true ∧ StatusHolds s

/-- A START now is one the spec gives a meaning: not `LEN > 128` with a command other than NOP (R221). -/
def StartLegal (s : State) : Prop :=
  s.status ≠ .busy → s.cmd ≠ 0b00 → s.len.toNat ≤ 128

/-- Same host-written registers and the same byte at every address of `BUF` (R45, R210): the host's side of the state. -/
def SameHostSide (s t : State) : Prop :=
  t.len = s.len ∧ t.cmd = s.cmd ∧ t.off = s.off ∧ t.tsInSec = s.tsInSec ∧ t.tsInFrac = s.tsInFrac
    ∧ ∀ a, bufRead t.buf a = bufRead s.buf a

/-- The same results: STATUS, every status and error register, every result register, every byte of `OUT` (R65b). -/
def SameResults (s t : State) : Prop :=
  t.status = s.status ∧ t.errKind = s.errKind ∧ t.errNeed = s.errNeed ∧ t.errHave = s.errHave ∧ t.errN = s.errN
    ∧ t.resid = s.resid ∧ t.pkt = s.pkt ∧ t.ext1Valid = s.ext1Valid ∧ t.ext2Valid = s.ext2Valid
    ∧ t.authValid = s.authValid ∧ t.tsdSec = s.tsdSec ∧ t.tsdFrac = s.tsdFrac ∧ ∀ a, outRead t.out a = outRead s.out a

/-- The operands of every command agree: `LEN`, the bytes below it, `CMD`, `OFF`, `TS_IN_*` (R65b). -/
def SameOperands (s t : State) : Prop :=
  t.len = s.len ∧ t.cmd = s.cmd ∧ t.off = s.off ∧ t.tsInSec = s.tsInSec ∧ t.tsInFrac = s.tsInFrac
    ∧ ∀ a < s.len.toNat, bufRead t.buf a = bufRead s.buf a

end Sys2Proof.Machine
end

