-- ==== Sys2Proof/WellFormed.lean ====
section
/-! DEFINITION. Which terms of the syntax are well formed: which table rows are operations (R111), and which
datagrams the parser reads back field by field (R90, R96, R181, R187). Every check is a Bool. -/

namespace Sys2Proof

/-- The row is an operation: a command or a parse step. A `MODE.` row names a value of a register (R98, R111). -/
def Instr.wellFormed : Instr → Bool
  | .modeReserved | .modeSymmetricActive | .modeSymmetricPassive | .modeClient
  | .modeServer | .modeBroadcast | .modeControl | .modeReservedPrivate => false
  | .nop | .pktDec | .tsDec | .tsEnc
  | .chkHdr12 | .unpkB0 | .ldStratum | .ldPoll | .ldPrec | .ldRdelay | .ldRdisp | .ldRefid
  | .tsRef | .tsOrg | .tsRcv | .tsXmt
  | .extScan | .extHdr | .extVal | .authLd | .finChk => true

/-- R96: the declared length is at least `EXT_MIN_L` and counts the value bytes. -/
def ExtField.wellFormed (f : ExtField) : Bool :=
  decide (Config.extMinL ≤ f.length.toNat) && decide (f.length.toNat = f.value.length)

/-- Bytes of an extension field: the two words and the value (R96). -/
def ExtField.size (f : ExtField) : Nat := Config.extHdrLen + f.value.length

/-- Bytes of a list of extension fields. -/
def ExtField.sizes : List ExtField → Nat
  | [] => 0
  | f :: fs => f.size + ExtField.sizes fs

/-- Bytes of the optional trailer (R97). -/
def AuthTrailer.optSize : Option AuthTrailer → Nat
  | none => 0
  | some _ => Config.authLen

/-- R187: no extension field begins where exactly `AUTH_LEN` bytes remain, since those would be read as a trailer. -/
def ExtField.noTrailerLookalike (authSize : Nat) : List ExtField → Bool
  | [] => true
  | f :: fs => decide (ExtField.sizes (f :: fs) + authSize ≠ Config.authLen)
      && ExtField.noTrailerLookalike authSize fs

/-- Bytes of a datagram (R90). -/
def Datagram.size (d : Datagram) : Nat :=
  Config.hdrLen + ExtField.sizes d.exts + AuthTrailer.optSize d.auth

/-- R90, R96, R187: at most two extension fields, each well formed, within `BUF_SIZE`, none taken for a trailer. -/
def Datagram.wellFormed (d : Datagram) : Bool :=
  decide (d.exts.length ≤ Config.extMaxCount)
    && d.exts.all ExtField.wellFormed
    && decide (d.size ≤ Config.bufSize)
    && ExtField.noTrailerLookalike (AuthTrailer.optSize d.auth) d.exts

end Sys2Proof
end

