-- ==== Sys2Proof/Certificates/Slice0/Obligations.lean ====
section
/-! DEFINITION. The statements for the provers, in the order of OBLIGATIONS.json. A statement that gives an instruction's
next state as an equation `exec i s = .next { s with … }` says its result, its frame (every component not named is that
of `s`) and that it completes. -/

open Sys2Proof Sys2Proof.Machine

/-! ## Selection and encoding -/

/-- R13, R210, R213: while BUSY a step runs what the phase decodes to (`P_IDLE` runs nothing); otherwise a step is the START
event the host raises and runs what `CMD` decodes to (the model's choice, log 5).
Every instruction so run is a well-formed one. -/
def Obligations.StepRunsTheDecodedInstruction : Prop :=
  ∀ s : State,
    (∀ i, s.status ≠ .busy → decode (.cmd s.cmd) = .ok i →
      i.wellFormed = true ∧ step s = exec i s ∧ hostMove .raiseStart s = exec i s) ∧
    (∀ i, s.status = .busy → decode (.phase s.pc.phase) = .ok i → i.wellFormed = true ∧ step s = exec i s) ∧
    (s.status = .busy → s.pc.phase = .idle → step s = .next s)

/-- Decoding on words written out from R105, R110 and R98. -/
def Obligations.SelectorsDecodeToTheirRows : Prop :=
  decode (.cmd 0b00#2) = .ok .nop ∧ decode (.cmd 0b01#2) = .ok .pktDec ∧
  decode (.cmd 0b10#2) = .ok .tsDec ∧ decode (.cmd 0b11#2) = .ok .tsEnc ∧
  decode (.phase .chk) = .ok .chkHdr12 ∧ decode (.phase .b0) = .ok .unpkB0 ∧
  decode (.phase .tsxmt) = .ok .tsXmt ∧ decode (.phase .exthdr) = .ok .extHdr ∧
  decode (.phase .fin) = .ok .finChk ∧ decode (.phase .idle) = .error .noStepInIdle ∧
  decode (.modeByte 0b00100011#8) = .ok .modeClient ∧ decode (.modeByte 0b11011100#8) = .ok .modeServer

/-- R98: the mode enumeration is total and one-to-one, and a row matches byte 0 under mask 0x07. -/
def Obligations.ModeEnumerationTotalAndOneToOne : Prop :=
  (∀ m : BitVec 3, modeBits (modeVariant m) = m) ∧
  (∀ v : ModeVariant, modeVariant (modeBits v) = v) ∧
  ([ModeVariant.reserved, .symmetricActive, .symmetricPassive, .client, .server, .broadcast, .control,
    .reservedPrivate].map fun v => (modeBits v).toNat) = [0, 1, 2, 3, 4, 5, 6, 7] ∧
  ∀ (b : Byte) (v : ModeVariant), decode (.modeByte b) = .ok (modeRow v) ↔ b.toNat &&& 0x07 = (modeBits v).toNat

/-- R91: the three fields of byte 0, and `BUF[0] = leap·64 + version·8 + mode`. -/
def Obligations.Byte0IsLeapVersionMode : Prop :=
  (∀ b : Byte, b.toNat = (b0Leap b).toNat * 64 + (b0Version b).toNat * 8 + (b0Mode b).toNat) ∧
  (∀ b : Byte, (b0Leap b).toNat = b.toNat / 64 ∧ (b0Version b).toNat = b.toNat / 8 % 8 ∧ (b0Mode b).toNat = b.toNat % 8) ∧
  ∀ (l : BitVec 2) (v m : BitVec 3),
    b0Leap (b0Byte l v m) = l ∧ b0Version (b0Byte l v m) = v ∧ b0Mode (b0Byte l v m) = m

/-- R63: bit `8j + i` of an `n`-byte big-endian value read at `a` is bit `i` of `BUF[a + n - 1 - j]`. -/
def Obligations.BigEndianBitPlacement : Prop :=
  ∀ (m : Memory) (a n i j : Nat), i < 8 → j < n →
    (beNat (bufBytes m a n)).testBit (8 * j + i) = (bufRead m (a + n - 1 - j)).getLsbD i

/-- R64: `MemRead(addr, n)` is `Σ BUF[addr + k] · 256^(n-1-k)`, `8n` bits wide. -/
def Obligations.MemReadIsBigEndianSum : Prop :=
  ∀ (s : State) (a n : Nat), a + n ≤ s.len.toNat → a + n ≤ 128 →
    memRead s a n = .val ((List.range n).map fun k => (bufRead s.buf (a + k)).toNat * 256 ^ (n - 1 - k)).sum ∧
    ((List.range n).map fun k => (bufRead s.buf (a + k)).toNat * 256 ^ (n - 1 - k)).sum < 2 ^ (8 * n)

/-- R65: no read gives a value past `LEN` or past the 128 bytes; the guards are the model's faults (log 13). -/
def Obligations.MemReadStopsOutsideTheDatagram : Prop :=
  ∀ (s : State) (a n : Nat),
    (s.len.toNat < a + n → memRead s a n = .stop .readPastLength) ∧
    (a + n ≤ s.len.toNat → 128 < a + n → memRead s a n = .stop .noSuchAddress) ∧
    ∀ v, memRead s a n = .val v → a + n ≤ s.len.toNat ∧ a + n ≤ 128

/-- R70: `MemWrite(addr, n, v)` sets byte `addr + k` of `OUT` to `(v >> 8(n-1-k)) & 0xFF`, and no other byte. -/
def Obligations.MemWriteStoresBigEndianBytes : Prop :=
  ∀ (m : Memory) (addr n v a : Nat),
    (∀ k < n, outRead (memWrite m addr n v) (addr + k) = some (BitVec.ofNat 8 ((v >>> (8 * (n - 1 - k))) &&& 0xFF))) ∧
    ((a < addr ∨ addr + n ≤ a) → outRead (memWrite m addr n v) a = outRead m a)

/-- R90, R106, R218: decode and encode agree: the bytes of a well-formed datagram, of any field values, decode to it. -/
def Obligations.EncodedDatagramsDecodeBack : Prop :=
  ∀ d : Datagram, d.wellFormed = true → d.bytes.length = d.size ∧ pktDecode d.bytes = .ok d.packet

/-! ## The parse steps -/

/-- R151: `CHK.HDR12`. -/
def Obligations.ChkHdr12TestsTwelveBytes : Prop :=
  ∀ s : State,
    (s.len.toNat < 12 → exec .chkHdr12 s = .next (raiseError (.truncated 12 s.len.toNat) s)) ∧
    (12 ≤ s.len.toNat → exec .chkHdr12 s = .next { s with pc := ⟨.b0, some 0, some 0⟩ })

/-- R152: `UNPK.B0`: `LEAP`, `VERSION`, `MODE` are bits 7:6, 5:3, 2:0 of byte 0. -/
def Obligations.UnpkB0SplitsByteZero : Prop :=
  ∀ s : State, 1 ≤ s.len.toNat →
    exec .unpkB0 s = .next { s with
      pkt := { s.pkt with
        leap := some (BitVec.ofNat 2 ((bufRead s.buf 0).toNat / 64))
        version := some (BitVec.ofNat 3 ((bufRead s.buf 0).toNat / 8 % 8))
        mode := some (BitVec.ofNat 3 ((bufRead s.buf 0).toNat % 8)) }
      pc := ⟨.stratum, some 1, some 0⟩ }

/-- R153, R154, R155: `LD.STRATUM`, `LD.POLL`, `LD.PREC` store their byte as received; the packet's precision is the
two's-complement reading of its byte. -/
def Obligations.ByteLoadsStoreTheByte : Prop :=
  ∀ s : State,
    (∀ (b : Byte) (P : Packet), s.pkt.precision = some b → s.packet = some P →
      P.precision = if b.toNat < 128 then (b.toNat : Int) else (b.toNat : Int) - 256) ∧
    (2 ≤ s.len.toNat → exec .ldStratum s =
      .next { s with pkt := { s.pkt with stratum := some (bufRead s.buf 1) }, pc := ⟨.poll, some 2, some 0⟩ }) ∧
    (3 ≤ s.len.toNat → exec .ldPoll s =
      .next { s with pkt := { s.pkt with poll := some (bufRead s.buf 2) }, pc := ⟨.prec, some 3, some 0⟩ }) ∧
    (4 ≤ s.len.toNat → exec .ldPrec s =
      .next { s with pkt := { s.pkt with precision := some (bufRead s.buf 3) }, pc := ⟨.rdelay, some 4, some 0⟩ })

/-- R156, R157: `LD.RDELAY` and `LD.RDISP` store the raw big-endian word. -/
def Obligations.FixedPointLoadsStoreTheRawWord : Prop :=
  ∀ s : State,
    (8 ≤ s.len.toNat → exec .ldRdelay s =
      .next { s with
        pkt := { s.pkt with rootDelay := some (bufRead s.buf 4 ++ bufRead s.buf 5 ++ bufRead s.buf 6 ++ bufRead s.buf 7) }
        pc := ⟨.rdisp, some 8, some 0⟩ }) ∧
    (12 ≤ s.len.toNat → exec .ldRdisp s =
      .next { s with
        pkt := { s.pkt with rootDisp := some (bufRead s.buf 8 ++ bufRead s.buf 9 ++ bufRead s.buf 10 ++ bufRead s.buf 11) }
        pc := ⟨.refid, some 12, some 0⟩ })

/-- R158: `LD.REFID` checks for 16 bytes, then stores the opaque word. -/
def Obligations.LdRefidChecksThenStores : Prop :=
  ∀ s : State,
    (s.len.toNat < 16 → exec .ldRefid s = .next (raiseError (.truncated 16 s.len.toNat) s)) ∧
    (16 ≤ s.len.toNat → exec .ldRefid s =
      .next { s with
        pkt := { s.pkt with refId := some (bufRead s.buf 12 ++ bufRead s.buf 13 ++ bufRead s.buf 14 ++ bufRead s.buf 15) }
        pc := ⟨.tsref, some 16, some 0⟩ })

/-- R135 to R138, R131: each timestamp step reads two big-endian words at `pc.pos` into its own pair and advances by 8, or
raises Truncated(`pc.pos` + 8, `LEN`). -/
def Obligations.TimestampStepsDecodeAtPos : Prop :=
  ∀ (s : State) (p : BitVec 8), s.pc.pos = some p →
    (s.len.toNat < p.toNat + 8 → ∀ i ∈ [Instr.tsRef, .tsOrg, .tsRcv, .tsXmt],
      exec i s = .next (raiseError (.truncated (p.toNat + 8) s.len.toNat) s)) ∧
    (p.toNat + 8 ≤ s.len.toNat → p.toNat + 8 ≤ 128 →
      ∃ sec frac : Word,
        (∀ j < 4, ∀ i < 8, sec.getLsbD (8 * j + i) = (bufRead s.buf (p.toNat + 3 - j)).getLsbD i) ∧
        (∀ j < 4, ∀ i < 8, frac.getLsbD (8 * j + i) = (bufRead s.buf (p.toNat + 7 - j)).getLsbD i) ∧
        exec .tsRef s = .next { s with
          pkt := { s.pkt with refTsSec := some sec, refTsFrac := some frac }
          pc := ⟨.tsorg, some (BitVec.ofNat 8 (p.toNat + 8)), s.pc.extcnt⟩ } ∧
        exec .tsOrg s = .next { s with
          pkt := { s.pkt with orgTsSec := some sec, orgTsFrac := some frac }
          pc := ⟨.tsrcv, some (BitVec.ofNat 8 (p.toNat + 8)), s.pc.extcnt⟩ } ∧
        exec .tsRcv s = .next { s with
          pkt := { s.pkt with rcvTsSec := some sec, rcvTsFrac := some frac }
          pc := ⟨.tsxmt, some (BitVec.ofNat 8 (p.toNat + 8)), s.pc.extcnt⟩ } ∧
        exec .tsXmt s = .next { s with
          pkt := { s.pkt with xmtTsSec := some sec, xmtTsFrac := some frac }
          pc := ⟨.scan, some (BitVec.ofNat 8 (p.toNat + 8)), s.pc.extcnt⟩ })

/-- R181: `EXT.SCAN`, its tests in the order written; only `pc.phase` is written. -/
def Obligations.ExtScanDispatches : Prop :=
  ∀ (s : State) (p : BitVec 8) (c : BitVec 2),
    s.pc.pos = some p → s.pc.extcnt = some c → p.toNat ≤ s.len.toNat →
    exec .extScan s = .next { s with pc :=
      ⟨if s.len.toNat = p.toNat then .fin
       else if s.len.toNat = p.toNat + 20 then .auth
       else if c = 2 then .fin
       else if s.len.toNat < p.toNat + 4 then .fin
       else .exthdr, some p, some c⟩ }

/-- R182: `EXT.HDR` reads type and length; a length outside `4 ≤ L ≤ rem - 4` raises MalformedExtension. -/
def Obligations.ExtHdrChecksTheLength : Prop :=
  ∀ (s : State) (p : BitVec 8) (t l : Half),
    s.pc.pos = some p → p.toNat + 4 ≤ s.len.toNat → p.toNat + 4 ≤ 128 →
    t = bufRead s.buf p.toNat ++ bufRead s.buf (p.toNat + 1) →
    l = bufRead s.buf (p.toNat + 2) ++ bufRead s.buf (p.toNat + 3) →
    ((l.toNat < 4 ∨ s.len.toNat < p.toNat + 4 + l.toNat) → exec .extHdr s = .next (raiseError .malformedExtension s)) ∧
    (4 ≤ l.toNat → p.toNat + 4 + l.toNat ≤ s.len.toNat →
      exec .extHdr s = .next { s with
        xtType := some t, xtLen := some l, pc := ⟨.extval, some p, s.pc.extcnt⟩ })

/-- R183: `EXT.VAL` commits the descriptor that `pc.extcnt` selects and steps over the field. The temporaries end
`novalue` (R39; the model's reading, log 8). -/
def Obligations.ExtValCommitsTheDescriptor : Prop :=
  ∀ (s : State) (p : BitVec 8) (t l : Half),
    s.pc.pos = some p → s.xtType = some t → s.xtLen = some l → p.toNat + 4 + l.toNat ≤ 128 →
    (s.pc.extcnt = some 0 → exec .extVal s = .next { s with
      pkt := { s.pkt with ext1Type := some t, ext1Len := some l, ext1Off := some (BitVec.ofNat 8 (p.toNat + 4)) }
      ext1Valid := some true, xtType := none, xtLen := none
      pc := ⟨.scan, some (BitVec.ofNat 8 (p.toNat + 4 + l.toNat)), some 1⟩ }) ∧
    (s.pc.extcnt = some 1 → exec .extVal s = .next { s with
      pkt := { s.pkt with ext2Type := some t, ext2Len := some l, ext2Off := some (BitVec.ofNat 8 (p.toNat + 4)) }
      ext2Valid := some true, xtType := none, xtLen := none
      pc := ⟨.scan, some (BitVec.ofNat 8 (p.toNat + 4 + l.toNat)), some 2⟩ })

/-- R184: `AUTH.LD` takes the key identifier big-endian, the sixteen digest bytes in buffer order, and sets the flag. -/
def Obligations.AuthLdTakesTheTrailer : Prop :=
  ∀ (s : State) (p : BitVec 8), s.pc.pos = some p → p.toNat + 20 ≤ s.len.toNat → p.toNat + 20 ≤ 128 →
    ∃ d : Vector Byte 16, (∀ (i : Nat) (h : i < 16), d[i] = bufRead s.buf (p.toNat + 4 + i)) ∧
      exec .authLd s = .next { s with
        pkt := { s.pkt with
          keyId := some (bufRead s.buf p.toNat ++ bufRead s.buf (p.toNat + 1) ++ bufRead s.buf (p.toNat + 2)
            ++ bufRead s.buf (p.toNat + 3))
          digest := some d }
        authValid := some true
        pc := ⟨.fin, some (BitVec.ofNat 8 (p.toNat + 20)), s.pc.extcnt⟩ }

/-- R185: `FIN.CHK` completes with `RESID = 0` when nothing is left, else raises TrailingGarbage of what is left. -/
def Obligations.FinChkCompletesOrRaises : Prop :=
  ∀ (s : State) (p : BitVec 8), s.pc.pos = some p →
    (p.toNat = s.len.toNat → exec .finChk s = .next { s with
      resid := some 0, status := .ok, pc := ⟨.idle, some p, s.pc.extcnt⟩ }) ∧
    (p.toNat < s.len.toNat → exec .finChk s = .next (raiseError (.trailingGarbage (s.len.toNat - p.toNat)) s))

/-! ## Commands and START -/

/-- R211: `NOP`, a START with `CMD` 0b00, has no effect at all. -/
def Obligations.NopHasNoEffect : Prop :=
  ∀ s : State, exec .nop s = .next s ∧ (s.cmd = 0b00 → hostMove .raiseStart s = .next s)

/-- R216: a START while BUSY starts nothing, queues nothing and changes nothing, whatever `CMD` selects. -/
def Obligations.StartWhileBusyIsIgnored : Prop :=
  ∀ (s : State) (i : Instr), s.status = .busy → i ∈ [Instr.nop, .pktDec, .tsDec, .tsEnc] →
    exec i s = .next s ∧ hostMove .raiseStart s = .next s

/-- R221: a START of a command other than NOP with `LEN > 128` is refused. -/
def Obligations.StartWithLenOverBufSizeIsRefused : Prop :=
  ∀ (s : State) (i : Instr), s.status ≠ .busy → 128 < s.len.toNat → i ∈ [Instr.pktDec, .tsDec, .tsEnc] →
    exec i s = .refused .lenOverBufSize

/-- R210: an accepted START of `PKT.DEC` wipes every result, clears the flags and begins at `(P_CHK, 0, 0)`. -/
def Obligations.PktDecStartWipesAndBegins : Prop :=
  ∀ s : State, s.status ≠ .busy → s.len.toNat ≤ 128 →
    exec .pktDec s = .next { s with
      status := .busy, errKind := .noError, errNeed := none, errHave := none, errN := none, resid := none
      pkt := .novalue, ext1Valid := some false, ext2Valid := some false, authValid := some false
      tsdSec := none, tsdFrac := none, out := [], xtType := none, xtLen := none
      pc := ⟨.chk, some 0, some 0⟩ }

/-- R132: `TS.DEC` at an accepted START: the pair at `OFF`, or Truncated(`OFF` + 8, `LEN`). The model's choices: START and
action in one transition (log 6), the flags `novalue` at the end (log 7). -/
def Obligations.TsDecReadsThePairAtOff : Prop :=
  ∀ s : State, s.status ≠ .busy → s.len.toNat ≤ 128 →
    (s.off.toNat + 8 ≤ s.len.toNat → exec .tsDec s = .next { s with
      status := .ok, errKind := .noError, errNeed := none, errHave := none, errN := none, resid := none
      pkt := .novalue, ext1Valid := none, ext2Valid := none, authValid := none
      tsdSec := some (bufRead s.buf s.off.toNat ++ bufRead s.buf (s.off.toNat + 1) ++ bufRead s.buf (s.off.toNat + 2)
        ++ bufRead s.buf (s.off.toNat + 3))
      tsdFrac := some (bufRead s.buf (s.off.toNat + 4) ++ bufRead s.buf (s.off.toNat + 5)
        ++ bufRead s.buf (s.off.toNat + 6) ++ bufRead s.buf (s.off.toNat + 7))
      out := [], xtType := none, xtLen := none
      pc := ⟨.idle, s.pc.pos, s.pc.extcnt⟩ }) ∧
    (s.len.toNat < s.off.toNat + 8 → ∃ t, exec .tsDec s = .next t ∧ t.status = .err ∧ t.errKind = .truncated ∧
      (∃ n h, t.errNeed = some n ∧ t.errHave = some h ∧ n.toNat = s.off.toNat + 8 ∧ h.toNat = s.len.toNat) ∧
      t.errN = none ∧ t.tsdSec = none ∧ t.tsdFrac = none ∧ t.pkt = .novalue ∧ t.pc.phase = .idle ∧ SameHostSide s t)

/-- R133: `TS.ENC` at an accepted START: the two words big-endian in `OUT`, STATUS OK, nothing else kept. The model's
choices: START and action in one transition (log 6), the flags `novalue` at the end (log 7). -/
def Obligations.TsEncWritesTheEightBytes : Prop :=
  ∀ s : State, s.status ≠ .busy → s.len.toNat ≤ 128 →
    ∃ m : Memory,
      outRead m 0 = some (s.tsInSec.extractLsb' 24 8) ∧ outRead m 1 = some (s.tsInSec.extractLsb' 16 8) ∧
      outRead m 2 = some (s.tsInSec.extractLsb' 8 8) ∧ outRead m 3 = some (s.tsInSec.extractLsb' 0 8) ∧
      outRead m 4 = some (s.tsInFrac.extractLsb' 24 8) ∧ outRead m 5 = some (s.tsInFrac.extractLsb' 16 8) ∧
      outRead m 6 = some (s.tsInFrac.extractLsb' 8 8) ∧ outRead m 7 = some (s.tsInFrac.extractLsb' 0 8) ∧
      (∀ a, 8 ≤ a → outRead m a = none) ∧
      exec .tsEnc s = .next { s with
        status := .ok, errKind := .noError, errNeed := none, errHave := none, errN := none, resid := none
        pkt := .novalue, ext1Valid := none, ext2Valid := none, authValid := none
        tsdSec := none, tsdFrac := none, out := m, xtType := none, xtLen := none
        pc := ⟨.idle, s.pc.pos, s.pc.extcnt⟩ }

/-- The eight ENUM rows name values of `MODE` and are no operation; executing one changes nothing (the model's reading of
R98, R111 and the table's note, log 11). -/
def Obligations.ModeRowsChangeNothing : Prop :=
  ∀ (s : State) (v : ModeVariant), exec (modeRow v) s = .next s

/-! ## The error exit -/

/-- R245, R241: what a `raise` writes: the cause code, its operands, every result `novalue`, idle, STATUS ERR; the host's
side and `OUT` stay. -/
def Obligations.ErrorExitRecordsAndWipes : Prop :=
  ∀ (e : DecodeError) (s : State),
    raiseError e s = { s with
      errKind := match e with
        | .truncated _ _ => .truncated
        | .malformedExtension => .malformedExtension
        | .trailingGarbage _ => .trailingGarbage
      errNeed := match e with
        | .truncated need _ => some (BitVec.ofNat 16 need)
        | .malformedExtension => none
        | .trailingGarbage _ => none
      errHave := match e with
        | .truncated _ hv => some (BitVec.ofNat 16 hv)
        | .malformedExtension => none
        | .trailingGarbage _ => none
      errN := match e with
        | .truncated _ _ => none
        | .malformedExtension => none
        | .trailingGarbage n => some (BitVec.ofNat 16 n)
      pkt := .novalue, ext1Valid := none, ext2Valid := none, authValid := none
      resid := none, tsdSec := none, tsdFrac := none, pc := ⟨.idle, none, none⟩, xtType := none, xtLen := none
      status := .err } ∧
    (raiseError e s).errKind.code = match e with
      | .truncated _ _ => 1
      | .malformedExtension => 2
      | .trailingGarbage _ => 3

/-- R248: an error leaves nothing behind: a `PKT.DEC` accepted after it begins in the same state as one accepted by a
machine that never saw it, if the host's side is the same. -/
def Obligations.ErrorLeavesNothingBehind : Prop :=
  ∀ (e : DecodeError) (s u : State), s.status ≠ .busy → s.len.toNat ≤ 128 →
    u.buf = s.buf → u.len = s.len → u.cmd = s.cmd → u.off = s.off → u.tsInSec = s.tsInSec → u.tsInFrac = s.tsInFrac →
    ∃ t, exec .pktDec (raiseError e u) = .next t ∧ exec .pktDec s = .next t

/-! ## Frames over all instructions -/

/-- R45, R210: no instruction writes a host-written register or a byte of `BUF`. -/
def Obligations.EngineNeverWritesTheHostSide : Prop :=
  ∀ (i : Instr) (s t : State), exec i s = .next t → SameHostSide s t

/-- R37: only `TS.ENC` gives a byte of `OUT` a value; an accepted `PKT.DEC` or `TS.DEC` takes all eight away; every other
instruction leaves every byte as it was. -/
def Obligations.OutIsWrittenByTsEncOnly : Prop :=
  ∀ (i : Instr) (s t : State), exec i s = .next t → ∀ a,
    (i ∉ [Instr.pktDec, .tsDec, .tsEnc] → outRead t.out a = outRead s.out a) ∧
    (i ∈ [Instr.pktDec, .tsDec] → s.status ≠ .busy → outRead t.out a = none) ∧
    (i ∈ [Instr.pktDec, .tsDec, .tsEnc] → s.status = .busy → outRead t.out a = outRead s.out a)

/-- 10_state section 5: a parse step ends in the error exit, or writes no packet field register but its own. -/
def Obligations.EachStepWritesItsOwnRegisters : Prop :=
  ∀ (i : Instr) (s t : State), i ∉ [Instr.pktDec, .tsDec, .tsEnc] → exec i s = .next t →
    (∃ e, t = raiseError e s) ∨
    ((i ≠ .unpkB0 → t.pkt.leap = s.pkt.leap ∧ t.pkt.version = s.pkt.version ∧ t.pkt.mode = s.pkt.mode) ∧
     (i ≠ .ldStratum → t.pkt.stratum = s.pkt.stratum) ∧ (i ≠ .ldPoll → t.pkt.poll = s.pkt.poll) ∧
     (i ≠ .ldPrec → t.pkt.precision = s.pkt.precision) ∧ (i ≠ .ldRdelay → t.pkt.rootDelay = s.pkt.rootDelay) ∧
     (i ≠ .ldRdisp → t.pkt.rootDisp = s.pkt.rootDisp) ∧ (i ≠ .ldRefid → t.pkt.refId = s.pkt.refId) ∧
     (i ≠ .tsRef → t.pkt.refTsSec = s.pkt.refTsSec ∧ t.pkt.refTsFrac = s.pkt.refTsFrac) ∧
     (i ≠ .tsOrg → t.pkt.orgTsSec = s.pkt.orgTsSec ∧ t.pkt.orgTsFrac = s.pkt.orgTsFrac) ∧
     (i ≠ .tsRcv → t.pkt.rcvTsSec = s.pkt.rcvTsSec ∧ t.pkt.rcvTsFrac = s.pkt.rcvTsFrac) ∧
     (i ≠ .tsXmt → t.pkt.xmtTsSec = s.pkt.xmtTsSec ∧ t.pkt.xmtTsFrac = s.pkt.xmtTsFrac) ∧
     (i ≠ .extVal → t.pkt.ext1Type = s.pkt.ext1Type ∧ t.pkt.ext1Len = s.pkt.ext1Len ∧ t.pkt.ext1Off = s.pkt.ext1Off ∧
       t.pkt.ext2Type = s.pkt.ext2Type ∧ t.pkt.ext2Len = s.pkt.ext2Len ∧ t.pkt.ext2Off = s.pkt.ext2Off) ∧
     (i ≠ .authLd → t.pkt.keyId = s.pkt.keyId ∧ t.pkt.digest = s.pkt.digest))

/-- R40: a flag becomes 1 only by the step that commits its section; a step that ends without an error changes no other. -/
def Obligations.FlagsAreSetByTheirStepOnly : Prop :=
  ∀ (i : Instr) (s t : State), exec i s = .next t →
    (t.ext1Valid = some true → s.ext1Valid = some true ∨ (i = .extVal ∧ s.pc.extcnt = some 0)) ∧
    (t.ext2Valid = some true → s.ext2Valid = some true ∨ (i = .extVal ∧ s.pc.extcnt = some 1)) ∧
    (t.authValid = some true → s.authValid = some true ∨ i = .authLd) ∧
    (t.status = .busy → i ∉ [Instr.pktDec, .extVal, .authLd] →
      t.ext1Valid = s.ext1Valid ∧ t.ext2Valid = s.ext2Valid ∧ t.authValid = s.authValid)

/-! ## Invariants, termination, the whole command -/

/-- R44, R280: the reset state satisfies the invariant. -/
def Obligations.ResetSatisfiesInvariant : Prop := Inv State.reset

/-- R42, R40: every step keeps the invariants I1 to I7, the table of which registers hold a value, and the memories' form. -/
def Obligations.StepKeepsInvariant : Prop := ∀ s t : State, Inv s → step s = .next t → Inv t

/-- R220, R252: inside the invariant a step never faults and never refuses, unless it is a START that R221 refuses. -/
def Obligations.StepNeverStopsInsideInvariant : Prop :=
  ∀ s : State, Inv s → StartLegal s → ∃ t, step s = .next t

/-- R13a, R45: every host move keeps the invariant. -/
def Obligations.HostMovesKeepInvariant : Prop :=
  ∀ (m : HostMove) (s t : State), Inv s → hostMove m s = .next t → Inv t

/-- R42 I7: at a successful end every byte of the datagram belongs to exactly one section. -/
def Obligations.SuccessfulEndCoversEveryByte : Prop :=
  ∀ s t : State, Inv s → s.status = .busy → exec .finChk s = .next t → s.pc.phase = .fin → t.status = .ok →
    ∃ e1 e2 a l1 l2, SectionsHold t e1 e2 a l1 l2 ∧ 48 + tailBytes e1 e2 a l1 l2 = t.len.toNat

/-- R218: the step machine computes `pkt_decode`: OK and the packet exactly when it returns Ok, ERR with the same error and
operands exactly when it returns Err. The spec marks this sentence as its own inference. The START is the model's step of
a machine that is not BUSY (log 5). -/
def Obligations.PktDecComputesPktDecode : Prop :=
  ∀ s : State, s.cmd = 0b01 → s.status ≠ .busy → s.len.toNat ≤ 128 →
    ∃ u t, step s = .next u ∧ runCommand u = .next t ∧ t.pc.phase = .idle ∧ SameHostSide s t ∧
      (∀ P, (t.status = .ok ∧ t.packet = some P ∧ t.resid = some 0) ↔ pktDecode s.datagram = .ok P) ∧
      (∀ e, (t.status = .err ∧ t.decodeError = some e) ↔ pktDecode s.datagram = .error e)

/-- R189: a `PKT.DEC` runs at most 21 steps and, when it succeeds, at least 14: it is BUSY before each of its `k` steps and
not after the last. The START is the model's step of a machine that is not BUSY (log 5). -/
def Obligations.PktDecRunsFourteenToTwentyOneSteps : Prop :=
  ∀ s : State, s.cmd = 0b01 → s.status ≠ .busy → s.len.toNat ≤ 128 →
    ∃ u k t, step s = .next u ∧ Host.Core.run core k u = .next t ∧ t.status ≠ .busy ∧ k ≤ 21 ∧ (t.status = .ok → 14 ≤ k) ∧
      ∀ j < k, ∃ v, Host.Core.run core j u = .next v ∧ v.status = .busy

/-- R220: every accepted command ends with exactly one of OK and ERR (the START is a step, log 5). -/
def Obligations.EveryAcceptedCommandEnds : Prop :=
  ∀ s : State, s.cmd ≠ 0b00 → s.status ≠ .busy → s.len.toNat ≤ 128 →
    ∃ u t, step s = .next u ∧ runCommand u = .next t ∧ (t.status = .ok ∨ t.status = .err) ∧ t.pc.phase = .idle

/-- R65b, R288: a command's outcome is a function of `LEN`, `BUF[0..LEN)` and the operand registers alone: bytes past `LEN`
and every earlier result have no influence (the START is a step, log 5). -/
def Obligations.OutcomeDependsOnOperandsOnly : Prop :=
  ∀ s1 s2 : State, SameOperands s1 s2 → s1.cmd ≠ 0b00 → s1.status ≠ .busy → s2.status ≠ .busy → s1.len.toNat ≤ 128 →
    ∃ u1 t1 u2 t2, step s1 = .next u1 ∧ runCommand u1 = .next t1 ∧ step s2 = .next u2 ∧ runCommand u2 = .next t2 ∧
      SameResults t1 t2

/-- R242, R103: a datagram shorter than 48 bytes is Truncated, with `need` the end of the first field it lacks
(the START is a step, log 5). -/
def Obligations.ShortDatagramIsTruncated : Prop :=
  ∀ s : State, s.cmd = 0b01 → s.status ≠ .busy → s.len.toNat < 48 →
    ∃ u t, step s = .next u ∧ runCommand u = .next t ∧ t.status = .err ∧
      t.decodeError = some (.truncated
        (if s.len.toNat < 12 then 12 else if s.len.toNat < 16 then 16 else 8 * (s.len.toNat / 8) + 8) s.len.toNat)

/-- R190: the outcome as a function of the tail, for a datagram of at least 48 bytes: `f` and `g` are the fields at offset
48 and where the first ends, `a` is the last 20 bytes. -/
def Obligations.TailDecidesTheOutcome : Prop :=
  ∀ (buf : List Byte) (T L1 T1 L2 T2 : Nat) (f g : ExtField) (a : AuthTrailer),
    48 ≤ buf.length → T = buf.length - 48 → L1 = (be16 buf 50).toNat → T1 = T - 4 - L1 →
    L2 = (be16 buf (52 + L1 + 2)).toNat → T2 = T1 - 4 - L2 →
    f = ⟨be16 buf 48, be16 buf 50, slice buf 52 L1⟩ →
    g = ⟨be16 buf (52 + L1), be16 buf (52 + L1 + 2), slice buf (52 + L1 + 4) L2⟩ →
    a.keyId = be32 buf (buf.length - 20) →
    (∀ (i : Nat) (h : i < 16), a.digest[i] = byteAt buf (buf.length - 16 + i)) →
    (T = 0 → pktDecode buf = .ok (mkPacket buf [] none)) ∧
    (T = 20 → pktDecode buf = .ok (mkPacket buf [] (some a))) ∧
    (1 ≤ T → T ≤ 3 → pktDecode buf = .error (.trailingGarbage T)) ∧
    (4 ≤ T → T ≠ 20 → ¬ (4 ≤ L1 ∧ L1 + 4 ≤ T) → pktDecode buf = .error .malformedExtension) ∧
    (T ≠ 20 → 4 ≤ L1 → L1 + 4 ≤ T →
      (T1 = 0 → pktDecode buf = .ok (mkPacket buf [f] none)) ∧
      (T1 = 20 → pktDecode buf = .ok (mkPacket buf [f] (some a))) ∧
      (1 ≤ T1 → T1 ≤ 3 → pktDecode buf = .error (.trailingGarbage T1)) ∧
      (4 ≤ T1 → T1 ≠ 20 → ¬ (4 ≤ L2 ∧ L2 + 4 ≤ T1) → pktDecode buf = .error .malformedExtension) ∧
      (T1 ≠ 20 → 4 ≤ L2 → L2 + 4 ≤ T1 →
        (T2 = 0 → pktDecode buf = .ok (mkPacket buf [f, g] none)) ∧
        (T2 = 20 → pktDecode buf = .ok (mkPacket buf [f, g] (some a))) ∧
        (T2 ≠ 0 → T2 ≠ 20 → pktDecode buf = .error (.trailingGarbage T2))))

/-- R90, R106, R218: the machine decodes what the host submits: any well-formed datagram, from any state that is not BUSY,
whatever stale bytes `BUF` holds. -/
def Obligations.SubmittedDatagramIsDecoded : Prop :=
  ∀ (d : Datagram) (s : State), d.wellFormed = true → Memory.bufWf s.buf = true → s.status ≠ .busy →
    ∃ u t, hostMoves (submitMoves d.bytes) s = .next u ∧ runCommand u = .next t ∧ t.status = .ok ∧
      t.packet = some d.packet

/-! ## The timestamp codec -/

/-- R134: `decode(encode(t)) == t`, through both buffers and at any offset. -/
def Obligations.TimestampDecodeOfEncode : Prop :=
  ∀ (s t : State) (o len : BitVec 8) (bytes : List Byte),
    s.status ≠ .busy → s.len.toNat ≤ 128 → Memory.bufWf s.buf = true → len.toNat ≤ 128 → o.toNat + 8 ≤ len.toNat →
    exec .tsEnc s = .next t → bytes.length = 8 → (∀ k (h : k < bytes.length), outRead t.out k = some bytes[k]) →
    ∃ u, exec .tsDec { t with buf := bufLoad t.buf o.toNat bytes, len := len, off := o } = .next u ∧
      u.status = .ok ∧ u.tsdSec = some s.tsInSec ∧ u.tsdFrac = some s.tsInFrac

/-- R140: `ts_encode(ts_decode(b)) = b` for every 8-byte string. -/
def Obligations.TimestampEncodeOfDecode : Prop :=
  ∀ (s : State) (off : Nat), off + 8 ≤ s.len.toNat → s.len.toNat ≤ 128 →
    ∃ t, tsDecode s off = .val t ∧ ∀ k < 8,
      outRead (memWrite (memWrite [] 0 4 t.seconds.toNat) 4 4 t.fraction.toNat) k = some (bufRead s.buf (off + k))

/-! ## Readings -/

/-- R159: `q16_value` is the signed word over `2^16`, the signed integer part plus a non-negative fraction, and strictly
increasing in the signed reading. -/
def Obligations.Q16ValueSplitsAndIncreases : Prop :=
  (∀ raw : Word, q16Value raw = (raw.toInt : Rat) / 2 ^ 16) ∧
  (∀ raw : Word, q16Value raw =
    ((raw.extractLsb' 16 16).toInt : Rat) + ((raw.extractLsb' 0 16).toNat : Rat) / 65536) ∧
  ∀ a b : Word, a.toInt < b.toInt ↔ q16Value a < q16Value b

/-- R160: `q16_encode` is `floor(x · 2^16) mod 2^32`: it rounds toward negative infinity, inverts `q16_value`, and is not
defined out of range. -/
def Obligations.Q16EncodeRoundsDown : Prop :=
  (∀ x : Rat, -32768 ≤ x → x < 32768 → ∃ raw : Word, q16Encode x = some raw ∧ (raw.toNat : Int) = ⌊x * 2 ^ 16⌋ % 2 ^ 32) ∧
  (∀ raw : Word, q16Encode (q16Value raw) = some raw) ∧
  (∀ (x : Rat) (raw : Word), q16Encode x = some raw → q16Value raw ≤ x ∧ x < q16Value raw + 1 / 65536) ∧
  ∀ x : Rat, q16Encode x = none ↔ (x < -32768 ∨ 32768 ≤ x)

/-! ## The host's interface -/

/-- R44, R280: what a reset leaves, whatever the machine was doing; the unspecified state is what the environment left (an
argument of the event: the model's choice, log 14). A step then is a START of NOP (log 5). -/
def Obligations.ResetEventSetsTheTable : Prop :=
  ∀ (left : Residue) (s : State), ∃ t, hostMove (.reset left) s = .next t ∧
    t.status = .idle ∧ t.errKind = .noError ∧ t.pc = ⟨.idle, some 0, some 0⟩ ∧
    t.ext1Valid = some false ∧ t.ext2Valid = some false ∧ t.authValid = some false ∧ t.len = 0 ∧ t.cmd = 0b00 ∧
    (∀ a, outRead t.out a = none) ∧ t.errNeed = none ∧ t.errHave = none ∧ t.errN = none ∧ t.resid = none ∧
    t.pkt = .novalue ∧ t.tsdSec = none ∧ t.tsdFrac = none ∧ t.xtType = none ∧ t.xtLen = none ∧
    t.off = left.off ∧ t.tsInSec = left.tsInSec ∧ t.tsInFrac = left.tsInFrac ∧
    (∀ a < 128, bufRead t.buf a = left.bytes.getD a 0) ∧ step t = .next t

/-- R283, R71: the host has no write move while BUSY; otherwise a write changes what it names, every other byte of `BUF`
and the rest of the state staying. -/
def Obligations.HostWritesOnlyWhenNotBusy : Prop :=
  ∀ (s : State) (i : BitVec 7) (b : Byte) (l o : BitVec 8) (c : BitVec 2) (x y : Word),
    (s.status = .busy →
      ∀ m ∈ [HostMove.writeBuf i b, .writeLen l, .writeCmd c, .writeOff o, .writeTsInSec x, .writeTsInFrac y],
        hostMove m s = .refused .hostWriteWhileBusy) ∧
    (s.status ≠ .busy →
      hostMove (.writeLen l) s = .next { s with len := l } ∧ hostMove (.writeCmd c) s = .next { s with cmd := c } ∧
      hostMove (.writeOff o) s = .next { s with off := o } ∧ hostMove (.writeTsInSec x) s = .next { s with tsInSec := x } ∧
      hostMove (.writeTsInFrac y) s = .next { s with tsInFrac := y } ∧
      (Memory.bufWf s.buf = true → ∃ m, hostMove (.writeBuf i b) s = .next { s with buf := m } ∧
        Memory.bufWf m = true ∧ ∀ a, bufRead m a = if a = i.toNat then b else bufRead s.buf a))

/-- R219, R284, R11, R45: STATUS can be read at any time; while BUSY no other register, no byte of `BUF` and no byte of
`OUT` can (for the operand registers, `BUF` and `OUT` the model's reading, log 10); a `novalue` register or byte of `OUT`
never (the refusal is the model's, log 1); otherwise a read gives the content; no read changes anything. -/
def Obligations.HostReadsAreGuardedAndPure : Prop :=
  ∀ (s : State) (r : Reg) (i : BitVec 7) (j : BitVec 3),
    hostReadReg s .status = .ok s.status.code ∧
    (s.status = .busy →
      (r ≠ .status → hostReadReg s r = .error .hostReadWhileBusy) ∧
      hostReadBuf s i = .error .hostReadWhileBusy ∧ hostReadOut s j = .error .hostReadWhileBusy) ∧
    (s.status ≠ .busy →
      (r.value s = none → hostReadReg s r = .error .hostReadNoValue) ∧
      (∀ v, r.value s = some v → hostReadReg s r = .ok v) ∧
      hostReadBuf s i = .ok (bufRead s.buf i.toNat) ∧
      (outRead s.out j.toNat = none → hostReadOut s j = .error .hostReadNoValue) ∧
      ∀ b, outRead s.out j.toNat = some b → hostReadOut s j = .ok b) ∧
    hostMove (.readReg r) s = (match hostReadReg s r with
      | .ok _ => .next s
      | .error e => .refused e) ∧
    hostMove (.readBuf i) s = (match hostReadBuf s i with
      | .ok _ => .next s
      | .error e => .refused e) ∧
    hostMove (.readOut j) s = (match hostReadOut s j with
      | .ok _ => .next s
      | .error e => .refused e)

/-- R260 to R263: the Validator: only the mode rejects; version and stratum add advisories whatever the verdict. -/
def Obligations.ValidatorChecksModeVersionStratum : Prop :=
  ∀ p : Packet,
    ((validate p).1 = .accepted ↔ p.mode = .client) ∧
    (p.mode ≠ .client → (validate p).1 = .rejectedUnsupportedMode p.mode) ∧
    (.versionMismatch ∈ (validate p).2 ↔ p.version ≠ 4) ∧ (.stratum ∈ (validate p).2 ↔ 17 ≤ p.stratum.toNat) ∧
    (validate p).2.Nodup

/-- R258, R288, R268: the Receive Loop reports each datagram by itself: one report a datagram, a function of that datagram
alone, and a decode error ends neither the loop nor the machine. The loop is host software outside NPD (R4): `receiveLoop`
is the model's own rendering of R253 to R258 (log 19). -/
def Obligations.ReceiveLoopReportsEachDatagramAlone : Prop :=
  ∀ (rs : List Received) (s : State), Memory.bufWf s.buf = true → s.status ≠ .busy →
    ∃ t, receiveLoop rs s = some (t, rs.map fun r =>
        ⟨r.source, decide (128 < r.bytes.length), reportBody (pktDecode (r.bytes.take 128))⟩) ∧ t.status ≠ .busy
end

