-- ==== Sys2Proof/Laws/Memory.lean ====
section
/-! SUPPORT. The laws of the two memories: what a read gives after each write, and that every write keeps the canonical form. -/

namespace Sys2Proof.Machine

/-- Every listed address is at least `x`. -/
def Memory.above (x : Nat) (m : Memory) : Prop := ∀ c ∈ m, x < c.1

theorem rising_cons_iff (a : Nat) (b : Byte) (m : Memory) :
    Memory.rising ((a, b) :: m) = true ↔ Memory.above a m ∧ Memory.rising m = true := by
  induction m generalizing a b with
  | nil => simp [Memory.rising, Memory.above]
  | cons c m ih =>
    obtain ⟨x, y⟩ := c
    simp only [Memory.rising, Bool.and_eq_true, decide_eq_true_eq]
    constructor
    · rintro ⟨h1, h2⟩
      refine ⟨?_, h2⟩
      have h3 := ((ih x y).mp h2).1
      intro d hd
      rcases List.mem_cons.mp hd with rfl | hd
      · exact h1
      · exact lt_trans h1 (h3 d hd)
    · rintro ⟨h1, h2⟩
      exact ⟨h1 (x, y) (by simp), h2⟩

theorem lookup_of_above {x : Nat} {m : Memory} (h : ∀ c ∈ m, c.1 ≠ x) : Memory.lookup m x = none := by
  induction m with
  | nil => rfl
  | cons c m ih =>
    obtain ⟨a, b⟩ := c
    have ha : a ≠ x := h (a, b) (by simp)
    simp only [Memory.lookup, if_neg (Ne.symm ha)]
    exact ih fun c hc => h c (by simp [hc])

theorem lookup_insert (m : Memory) (x y : Nat) (b : Byte) :
    Memory.lookup (Memory.insert m x b) y = if y = x then some b else Memory.lookup m y := by
  induction m with
  | nil => simp [Memory.insert, Memory.lookup]
  | cons c m ih =>
    obtain ⟨a, d⟩ := c
    unfold Memory.insert
    split
    · simp [Memory.lookup]
    · split
      · subst x
        simp only [Memory.lookup]
        split <;> rfl
      · simp only [Memory.lookup, ih]
        by_cases h1 : y = a
        · subst h1
          simp_all [eq_comm]
        · simp [h1]

theorem mem_insert {m : Memory} {x : Nat} {b : Byte} {c : Host.Cell} (h : c ∈ Memory.insert m x b) :
    c = (x, b) ∨ c ∈ m := by
  induction m with
  | nil => simpa [Memory.insert] using h
  | cons d m ih =>
    unfold Memory.insert at h
    split at h
    · simpa using h
    · split at h
      · rcases List.mem_cons.mp h with h | h
        · exact .inl h
        · exact .inr (by simp [h])
      · rcases List.mem_cons.mp h with h | h
        · exact .inr (by simp [h])
        · rcases ih h with h | h
          · exact .inl h
          · exact .inr (by simp [h])

theorem mem_erase {m : Memory} {x : Nat} {c : Host.Cell} (h : c ∈ Memory.erase m x) : c ∈ m := by
  induction m with
  | nil => simp [Memory.erase] at h
  | cons d m ih =>
    unfold Memory.erase at h
    split at h
    · simp [h]
    · rcases List.mem_cons.mp h with h | h
      · simp [h]
      · simp [ih h]

theorem insert_rising {m : Memory} (h : Memory.rising m = true) (x : Nat) (b : Byte) :
    Memory.rising (Memory.insert m x b) = true := by
  induction m with
  | nil => rfl
  | cons c m ih =>
    obtain ⟨a, d⟩ := c
    obtain ⟨ha, hm⟩ := (rising_cons_iff a d m).mp h
    unfold Memory.insert
    split
    · rename_i hx
      refine (rising_cons_iff _ _ _).mpr ⟨?_, h⟩
      intro e he
      rcases List.mem_cons.mp he with rfl | he
      · exact hx
      · exact lt_trans hx (ha e he)
    · split
      · subst x
        exact (rising_cons_iff _ _ _).mpr ⟨ha, hm⟩
      · refine (rising_cons_iff _ _ _).mpr ⟨?_, ih hm⟩
        intro e he
        rcases mem_insert he with rfl | he
        · show a < x
          omega
        · exact ha e he

theorem erase_rising {m : Memory} (h : Memory.rising m = true) (x : Nat) : Memory.rising (Memory.erase m x) = true := by
  induction m with
  | nil => rfl
  | cons c m ih =>
    obtain ⟨a, d⟩ := c
    obtain ⟨ha, hm⟩ := (rising_cons_iff a d m).mp h
    unfold Memory.erase
    split
    · exact hm
    · exact (rising_cons_iff _ _ _).mpr ⟨fun e he => ha e (mem_erase he), ih hm⟩

theorem lookup_erase {m : Memory} (h : Memory.rising m = true) (x y : Nat) :
    Memory.lookup (Memory.erase m x) y = if y = x then none else Memory.lookup m y := by
  induction m with
  | nil => simp [Memory.erase, Memory.lookup]
  | cons c m ih =>
    obtain ⟨a, d⟩ := c
    obtain ⟨ha, hm⟩ := (rising_cons_iff a d m).mp h
    unfold Memory.erase
    split
    · subst x
      by_cases hy : y = a
      · subst hy
        simp only [if_true]
        exact lookup_of_above fun e he => ne_of_gt (ha e he)
      · simp [Memory.lookup, hy]
    · simp only [Memory.lookup, ih hm]
      by_cases hy : y = a
      · subst hy
        rename_i hne
        have : ¬ y = x := fun e => hne e.symm
        simp [this]
      · simp [hy]

theorem bufWf_iff (m : Memory) :
    Memory.bufWf m = true ↔ Memory.rising m = true ∧ ∀ c ∈ m, c.1 < 128 ∧ c.2 ≠ unlistedByte := by
  simp [Memory.bufWf, List.all_eq_true]

theorem outWf_iff (m : Memory) : Memory.outWf m = true ↔ Memory.rising m = true ∧ ∀ c ∈ m, c.1 < 8 := by
  simp [Memory.outWf, List.all_eq_true]

theorem bufRead_bufWrite {m : Memory} (h : Memory.bufWf m = true) (x y : Nat) (b : Byte) :
    bufRead (bufWrite m x b) y = if y = x then b else bufRead m y := by
  have hr := ((bufWf_iff m).mp h).1
  unfold bufRead bufWrite
  split
  · rename_i hb
    rw [lookup_erase hr]
    split <;> simp [hb]
  · rw [lookup_insert]
    split <;> simp

theorem bufWrite_wf {m : Memory} (h : Memory.bufWf m = true) {x : Nat} (hx : x < 128) (b : Byte) :
    Memory.bufWf (bufWrite m x b) = true := by
  obtain ⟨hr, hc⟩ := (bufWf_iff m).mp h
  rw [bufWf_iff]
  unfold bufWrite
  split
  · exact ⟨erase_rising hr x, fun c hm => hc c (mem_erase hm)⟩
  · rename_i hb
    refine ⟨insert_rising hr x b, fun c hm => ?_⟩
    rcases mem_insert hm with rfl | hm
    · exact ⟨hx, hb⟩
    · exact hc c hm

theorem bufLoad_wf {m : Memory} (h : Memory.bufWf m = true) {a : Nat} {bs : List Byte} (ha : a + bs.length ≤ 128) :
    Memory.bufWf (bufLoad m a bs) = true := by
  induction bs generalizing m a with
  | nil => exact h
  | cons b bs ih =>
    simp only [List.length_cons] at ha
    exact ih (bufWrite_wf h (by omega) b) (by omega)

/-- Every byte after a load: the loaded ones inside the range, the old ones outside. -/
theorem bufRead_bufLoad {m : Memory} (h : Memory.bufWf m = true) {a : Nat} {bs : List Byte} (ha : a + bs.length ≤ 128)
    (y : Nat) :
    bufRead (bufLoad m a bs) y = if a ≤ y ∧ y < a + bs.length then bs.getD (y - a) 0 else bufRead m y := by
  induction bs generalizing m a with
  | nil => simp [bufLoad]
  | cons b bs ih =>
    simp only [List.length_cons] at ha ⊢
    rw [bufLoad, ih (bufWrite_wf h (by omega) b) (by omega), bufRead_bufWrite h]
    by_cases h1 : y = a
    · subst h1
      have h2 : ¬ (y + 1 ≤ y ∧ y < y + 1 + bs.length) := by omega
      simp
    · by_cases h2 : a + 1 ≤ y ∧ y < a + 1 + bs.length
      · obtain ⟨k, rfl⟩ : ∃ k, y = a + 1 + k := ⟨y - (a + 1), by omega⟩
        have h4 : a + 1 + k - a = k + 1 := by omega
        have h5 : a + 1 + k - (a + 1) = k := by omega
        rw [if_pos h2, if_pos (by omega), h4, h5]
        simp
      · rw [if_neg h2, if_neg h1, if_neg (by omega)]

theorem foldl_insert_lookup (f : Nat → Nat × Byte) (l : List Nat) (m : Memory)
    (hinj : ∀ i ∈ l, ∀ j ∈ l, (f i).1 = (f j).1 → i = j) (y : Nat) :
    (∀ k ∈ l, (f k).1 = y → Memory.lookup (l.foldl (fun acc k => Memory.insert acc (f k).1 (f k).2) m) y = some (f k).2) ∧
    ((∀ k ∈ l, (f k).1 ≠ y) →
      Memory.lookup (l.foldl (fun acc k => Memory.insert acc (f k).1 (f k).2) m) y = Memory.lookup m y) := by
  induction l generalizing m with
  | nil => simp
  | cons k l ih =>
    have hi : ∀ i ∈ l, ∀ j ∈ l, (f i).1 = (f j).1 → i = j := fun i hi j hj => hinj i (by simp [hi]) j (by simp [hj])
    obtain ⟨ih1, ih2⟩ := ih (Memory.insert m (f k).1 (f k).2) hi
    refine ⟨fun j hj hy => ?_, fun hne => ?_⟩
    · by_cases hex : ∃ i ∈ l, (f i).1 = y
      · obtain ⟨i, hi', hiy⟩ := hex
        have : i = j := hinj i (by simp [hi']) j hj (hiy.trans hy.symm)
        subst this
        exact ih1 i hi' hiy
      · have hjk : j = k := by
          rcases List.mem_cons.mp hj with h | h
          · exact h
          · exact absurd ⟨j, h, hy⟩ hex
        subst hjk
        have := ih2 fun i hi' h => hex ⟨i, hi', h⟩
        simp only [List.foldl_cons]
        rw [this, lookup_insert, if_pos hy.symm]
    · have := ih2 fun i hi' => hne i (by simp [hi'])
      simp only [List.foldl_cons]
      rw [this, lookup_insert, if_neg (fun h => hne k (by simp) h.symm)]

theorem memWrite_wf {m : Memory} (h : Memory.outWf m = true) {addr n v : Nat} (ha : addr + n ≤ 8) :
    Memory.outWf (memWrite m addr n v) = true := by
  have key : ∀ (l : List Nat) (m : Memory), (∀ k ∈ l, addr + k < 8) → Memory.outWf m = true →
      Memory.outWf (l.foldl (fun acc k => Memory.insert acc (addr + k) (beByte n v k)) m) = true := by
    intro l
    induction l with
    | nil => exact fun m _ hm => hm
    | cons k l ih =>
      intro m hl hm
      obtain ⟨hr, hc⟩ := (outWf_iff m).mp hm
      refine ih _ (fun j hj => hl j (by simp [hj])) ((outWf_iff _).mpr ⟨insert_rising hr _ _, fun c hcm => ?_⟩)
      rcases mem_insert hcm with rfl | hcm
      · exact hl k (by simp)
      · exact hc c hcm
  exact key _ m (fun k hk => by have := List.mem_range.mp hk; omega) h

end Sys2Proof.Machine
end

