-- ==== Sys2Proof/Laws/State.lean ====
section
/-! SUPPORT. One lemma per field per update of the state, each true by rfl: later proofs cite these and unfold no update. -/

namespace Sys2Proof.Machine

@[simp] theorem clearFlags_buf (s : State) : (clearFlags s).buf = s.buf := rfl
@[simp] theorem clearFlags_out (s : State) : (clearFlags s).out = s.out := rfl
@[simp] theorem clearFlags_len (s : State) : (clearFlags s).len = s.len := rfl
@[simp] theorem clearFlags_cmd (s : State) : (clearFlags s).cmd = s.cmd := rfl
@[simp] theorem clearFlags_off (s : State) : (clearFlags s).off = s.off := rfl
@[simp] theorem clearFlags_tsInSec (s : State) : (clearFlags s).tsInSec = s.tsInSec := rfl
@[simp] theorem clearFlags_tsInFrac (s : State) : (clearFlags s).tsInFrac = s.tsInFrac := rfl
@[simp] theorem clearFlags_status (s : State) : (clearFlags s).status = s.status := rfl
@[simp] theorem clearFlags_errKind (s : State) : (clearFlags s).errKind = s.errKind := rfl
@[simp] theorem clearFlags_errNeed (s : State) : (clearFlags s).errNeed = s.errNeed := rfl
@[simp] theorem clearFlags_errHave (s : State) : (clearFlags s).errHave = s.errHave := rfl
@[simp] theorem clearFlags_errN (s : State) : (clearFlags s).errN = s.errN := rfl
@[simp] theorem clearFlags_resid (s : State) : (clearFlags s).resid = s.resid := rfl
@[simp] theorem clearFlags_pkt (s : State) : (clearFlags s).pkt = s.pkt := rfl
@[simp] theorem clearFlags_ext1Valid (s : State) : (clearFlags s).ext1Valid = some false := rfl
@[simp] theorem clearFlags_ext2Valid (s : State) : (clearFlags s).ext2Valid = some false := rfl
@[simp] theorem clearFlags_authValid (s : State) : (clearFlags s).authValid = some false := rfl
@[simp] theorem clearFlags_tsdSec (s : State) : (clearFlags s).tsdSec = s.tsdSec := rfl
@[simp] theorem clearFlags_tsdFrac (s : State) : (clearFlags s).tsdFrac = s.tsdFrac := rfl
@[simp] theorem clearFlags_pc (s : State) : (clearFlags s).pc = s.pc := rfl
@[simp] theorem clearFlags_xtType (s : State) : (clearFlags s).xtType = s.xtType := rfl
@[simp] theorem clearFlags_xtLen (s : State) : (clearFlags s).xtLen = s.xtLen := rfl

@[simp] theorem loseFlags_buf (s : State) : (loseFlags s).buf = s.buf := rfl
@[simp] theorem loseFlags_out (s : State) : (loseFlags s).out = s.out := rfl
@[simp] theorem loseFlags_len (s : State) : (loseFlags s).len = s.len := rfl
@[simp] theorem loseFlags_cmd (s : State) : (loseFlags s).cmd = s.cmd := rfl
@[simp] theorem loseFlags_off (s : State) : (loseFlags s).off = s.off := rfl
@[simp] theorem loseFlags_tsInSec (s : State) : (loseFlags s).tsInSec = s.tsInSec := rfl
@[simp] theorem loseFlags_tsInFrac (s : State) : (loseFlags s).tsInFrac = s.tsInFrac := rfl
@[simp] theorem loseFlags_status (s : State) : (loseFlags s).status = s.status := rfl
@[simp] theorem loseFlags_errKind (s : State) : (loseFlags s).errKind = s.errKind := rfl
@[simp] theorem loseFlags_errNeed (s : State) : (loseFlags s).errNeed = s.errNeed := rfl
@[simp] theorem loseFlags_errHave (s : State) : (loseFlags s).errHave = s.errHave := rfl
@[simp] theorem loseFlags_errN (s : State) : (loseFlags s).errN = s.errN := rfl
@[simp] theorem loseFlags_resid (s : State) : (loseFlags s).resid = s.resid := rfl
@[simp] theorem loseFlags_pkt (s : State) : (loseFlags s).pkt = s.pkt := rfl
@[simp] theorem loseFlags_ext1Valid (s : State) : (loseFlags s).ext1Valid = none := rfl
@[simp] theorem loseFlags_ext2Valid (s : State) : (loseFlags s).ext2Valid = none := rfl
@[simp] theorem loseFlags_authValid (s : State) : (loseFlags s).authValid = none := rfl
@[simp] theorem loseFlags_tsdSec (s : State) : (loseFlags s).tsdSec = s.tsdSec := rfl
@[simp] theorem loseFlags_tsdFrac (s : State) : (loseFlags s).tsdFrac = s.tsdFrac := rfl
@[simp] theorem loseFlags_pc (s : State) : (loseFlags s).pc = s.pc := rfl
@[simp] theorem loseFlags_xtType (s : State) : (loseFlags s).xtType = s.xtType := rfl
@[simp] theorem loseFlags_xtLen (s : State) : (loseFlags s).xtLen = s.xtLen := rfl

@[simp] theorem setExt1Valid_buf (s : State) : (setExt1Valid s).buf = s.buf := rfl
@[simp] theorem setExt1Valid_out (s : State) : (setExt1Valid s).out = s.out := rfl
@[simp] theorem setExt1Valid_len (s : State) : (setExt1Valid s).len = s.len := rfl
@[simp] theorem setExt1Valid_cmd (s : State) : (setExt1Valid s).cmd = s.cmd := rfl
@[simp] theorem setExt1Valid_off (s : State) : (setExt1Valid s).off = s.off := rfl
@[simp] theorem setExt1Valid_tsInSec (s : State) : (setExt1Valid s).tsInSec = s.tsInSec := rfl
@[simp] theorem setExt1Valid_tsInFrac (s : State) : (setExt1Valid s).tsInFrac = s.tsInFrac := rfl
@[simp] theorem setExt1Valid_status (s : State) : (setExt1Valid s).status = s.status := rfl
@[simp] theorem setExt1Valid_errKind (s : State) : (setExt1Valid s).errKind = s.errKind := rfl
@[simp] theorem setExt1Valid_errNeed (s : State) : (setExt1Valid s).errNeed = s.errNeed := rfl
@[simp] theorem setExt1Valid_errHave (s : State) : (setExt1Valid s).errHave = s.errHave := rfl
@[simp] theorem setExt1Valid_errN (s : State) : (setExt1Valid s).errN = s.errN := rfl
@[simp] theorem setExt1Valid_resid (s : State) : (setExt1Valid s).resid = s.resid := rfl
@[simp] theorem setExt1Valid_pkt (s : State) : (setExt1Valid s).pkt = s.pkt := rfl
@[simp] theorem setExt1Valid_ext1Valid (s : State) : (setExt1Valid s).ext1Valid = some true := rfl
@[simp] theorem setExt1Valid_ext2Valid (s : State) : (setExt1Valid s).ext2Valid = s.ext2Valid := rfl
@[simp] theorem setExt1Valid_authValid (s : State) : (setExt1Valid s).authValid = s.authValid := rfl
@[simp] theorem setExt1Valid_tsdSec (s : State) : (setExt1Valid s).tsdSec = s.tsdSec := rfl
@[simp] theorem setExt1Valid_tsdFrac (s : State) : (setExt1Valid s).tsdFrac = s.tsdFrac := rfl
@[simp] theorem setExt1Valid_pc (s : State) : (setExt1Valid s).pc = s.pc := rfl
@[simp] theorem setExt1Valid_xtType (s : State) : (setExt1Valid s).xtType = s.xtType := rfl
@[simp] theorem setExt1Valid_xtLen (s : State) : (setExt1Valid s).xtLen = s.xtLen := rfl

@[simp] theorem setExt2Valid_buf (s : State) : (setExt2Valid s).buf = s.buf := rfl
@[simp] theorem setExt2Valid_out (s : State) : (setExt2Valid s).out = s.out := rfl
@[simp] theorem setExt2Valid_len (s : State) : (setExt2Valid s).len = s.len := rfl
@[simp] theorem setExt2Valid_cmd (s : State) : (setExt2Valid s).cmd = s.cmd := rfl
@[simp] theorem setExt2Valid_off (s : State) : (setExt2Valid s).off = s.off := rfl
@[simp] theorem setExt2Valid_tsInSec (s : State) : (setExt2Valid s).tsInSec = s.tsInSec := rfl
@[simp] theorem setExt2Valid_tsInFrac (s : State) : (setExt2Valid s).tsInFrac = s.tsInFrac := rfl
@[simp] theorem setExt2Valid_status (s : State) : (setExt2Valid s).status = s.status := rfl
@[simp] theorem setExt2Valid_errKind (s : State) : (setExt2Valid s).errKind = s.errKind := rfl
@[simp] theorem setExt2Valid_errNeed (s : State) : (setExt2Valid s).errNeed = s.errNeed := rfl
@[simp] theorem setExt2Valid_errHave (s : State) : (setExt2Valid s).errHave = s.errHave := rfl
@[simp] theorem setExt2Valid_errN (s : State) : (setExt2Valid s).errN = s.errN := rfl
@[simp] theorem setExt2Valid_resid (s : State) : (setExt2Valid s).resid = s.resid := rfl
@[simp] theorem setExt2Valid_pkt (s : State) : (setExt2Valid s).pkt = s.pkt := rfl
@[simp] theorem setExt2Valid_ext1Valid (s : State) : (setExt2Valid s).ext1Valid = s.ext1Valid := rfl
@[simp] theorem setExt2Valid_ext2Valid (s : State) : (setExt2Valid s).ext2Valid = some true := rfl
@[simp] theorem setExt2Valid_authValid (s : State) : (setExt2Valid s).authValid = s.authValid := rfl
@[simp] theorem setExt2Valid_tsdSec (s : State) : (setExt2Valid s).tsdSec = s.tsdSec := rfl
@[simp] theorem setExt2Valid_tsdFrac (s : State) : (setExt2Valid s).tsdFrac = s.tsdFrac := rfl
@[simp] theorem setExt2Valid_pc (s : State) : (setExt2Valid s).pc = s.pc := rfl
@[simp] theorem setExt2Valid_xtType (s : State) : (setExt2Valid s).xtType = s.xtType := rfl
@[simp] theorem setExt2Valid_xtLen (s : State) : (setExt2Valid s).xtLen = s.xtLen := rfl

@[simp] theorem setAuthValid_buf (s : State) : (setAuthValid s).buf = s.buf := rfl
@[simp] theorem setAuthValid_out (s : State) : (setAuthValid s).out = s.out := rfl
@[simp] theorem setAuthValid_len (s : State) : (setAuthValid s).len = s.len := rfl
@[simp] theorem setAuthValid_cmd (s : State) : (setAuthValid s).cmd = s.cmd := rfl
@[simp] theorem setAuthValid_off (s : State) : (setAuthValid s).off = s.off := rfl
@[simp] theorem setAuthValid_tsInSec (s : State) : (setAuthValid s).tsInSec = s.tsInSec := rfl
@[simp] theorem setAuthValid_tsInFrac (s : State) : (setAuthValid s).tsInFrac = s.tsInFrac := rfl
@[simp] theorem setAuthValid_status (s : State) : (setAuthValid s).status = s.status := rfl
@[simp] theorem setAuthValid_errKind (s : State) : (setAuthValid s).errKind = s.errKind := rfl
@[simp] theorem setAuthValid_errNeed (s : State) : (setAuthValid s).errNeed = s.errNeed := rfl
@[simp] theorem setAuthValid_errHave (s : State) : (setAuthValid s).errHave = s.errHave := rfl
@[simp] theorem setAuthValid_errN (s : State) : (setAuthValid s).errN = s.errN := rfl
@[simp] theorem setAuthValid_resid (s : State) : (setAuthValid s).resid = s.resid := rfl
@[simp] theorem setAuthValid_pkt (s : State) : (setAuthValid s).pkt = s.pkt := rfl
@[simp] theorem setAuthValid_ext1Valid (s : State) : (setAuthValid s).ext1Valid = s.ext1Valid := rfl
@[simp] theorem setAuthValid_ext2Valid (s : State) : (setAuthValid s).ext2Valid = s.ext2Valid := rfl
@[simp] theorem setAuthValid_authValid (s : State) : (setAuthValid s).authValid = some true := rfl
@[simp] theorem setAuthValid_tsdSec (s : State) : (setAuthValid s).tsdSec = s.tsdSec := rfl
@[simp] theorem setAuthValid_tsdFrac (s : State) : (setAuthValid s).tsdFrac = s.tsdFrac := rfl
@[simp] theorem setAuthValid_pc (s : State) : (setAuthValid s).pc = s.pc := rfl
@[simp] theorem setAuthValid_xtType (s : State) : (setAuthValid s).xtType = s.xtType := rfl
@[simp] theorem setAuthValid_xtLen (s : State) : (setAuthValid s).xtLen = s.xtLen := rfl

@[simp] theorem startAction_buf (s : State) : (startAction s).buf = s.buf := rfl
@[simp] theorem startAction_out (s : State) : (startAction s).out = [] := rfl
@[simp] theorem startAction_len (s : State) : (startAction s).len = s.len := rfl
@[simp] theorem startAction_cmd (s : State) : (startAction s).cmd = s.cmd := rfl
@[simp] theorem startAction_off (s : State) : (startAction s).off = s.off := rfl
@[simp] theorem startAction_tsInSec (s : State) : (startAction s).tsInSec = s.tsInSec := rfl
@[simp] theorem startAction_tsInFrac (s : State) : (startAction s).tsInFrac = s.tsInFrac := rfl
@[simp] theorem startAction_status (s : State) : (startAction s).status = .busy := rfl
@[simp] theorem startAction_errKind (s : State) : (startAction s).errKind = .noError := rfl
@[simp] theorem startAction_errNeed (s : State) : (startAction s).errNeed = none := rfl
@[simp] theorem startAction_errHave (s : State) : (startAction s).errHave = none := rfl
@[simp] theorem startAction_errN (s : State) : (startAction s).errN = none := rfl
@[simp] theorem startAction_resid (s : State) : (startAction s).resid = none := rfl
@[simp] theorem startAction_pkt (s : State) : (startAction s).pkt = .novalue := rfl
@[simp] theorem startAction_ext1Valid (s : State) : (startAction s).ext1Valid = some false := rfl
@[simp] theorem startAction_ext2Valid (s : State) : (startAction s).ext2Valid = some false := rfl
@[simp] theorem startAction_authValid (s : State) : (startAction s).authValid = some false := rfl
@[simp] theorem startAction_tsdSec (s : State) : (startAction s).tsdSec = none := rfl
@[simp] theorem startAction_tsdFrac (s : State) : (startAction s).tsdFrac = none := rfl
@[simp] theorem startAction_pc (s : State) : (startAction s).pc = s.pc := rfl
@[simp] theorem startAction_xtType (s : State) : (startAction s).xtType = none := rfl
@[simp] theorem startAction_xtLen (s : State) : (startAction s).xtLen = none := rfl

@[simp] theorem completeOk_buf (s : State) : (completeOk s).buf = s.buf := rfl
@[simp] theorem completeOk_out (s : State) : (completeOk s).out = s.out := rfl
@[simp] theorem completeOk_len (s : State) : (completeOk s).len = s.len := rfl
@[simp] theorem completeOk_cmd (s : State) : (completeOk s).cmd = s.cmd := rfl
@[simp] theorem completeOk_off (s : State) : (completeOk s).off = s.off := rfl
@[simp] theorem completeOk_tsInSec (s : State) : (completeOk s).tsInSec = s.tsInSec := rfl
@[simp] theorem completeOk_tsInFrac (s : State) : (completeOk s).tsInFrac = s.tsInFrac := rfl
@[simp] theorem completeOk_status (s : State) : (completeOk s).status = .ok := rfl
@[simp] theorem completeOk_errKind (s : State) : (completeOk s).errKind = s.errKind := rfl
@[simp] theorem completeOk_errNeed (s : State) : (completeOk s).errNeed = s.errNeed := rfl
@[simp] theorem completeOk_errHave (s : State) : (completeOk s).errHave = s.errHave := rfl
@[simp] theorem completeOk_errN (s : State) : (completeOk s).errN = s.errN := rfl
@[simp] theorem completeOk_resid (s : State) : (completeOk s).resid = s.resid := rfl
@[simp] theorem completeOk_pkt (s : State) : (completeOk s).pkt = s.pkt := rfl
@[simp] theorem completeOk_ext1Valid (s : State) : (completeOk s).ext1Valid = s.ext1Valid := rfl
@[simp] theorem completeOk_ext2Valid (s : State) : (completeOk s).ext2Valid = s.ext2Valid := rfl
@[simp] theorem completeOk_authValid (s : State) : (completeOk s).authValid = s.authValid := rfl
@[simp] theorem completeOk_tsdSec (s : State) : (completeOk s).tsdSec = s.tsdSec := rfl
@[simp] theorem completeOk_tsdFrac (s : State) : (completeOk s).tsdFrac = s.tsdFrac := rfl
@[simp] theorem completeOk_pc (s : State) : (completeOk s).pc = ⟨.idle, s.pc.pos, s.pc.extcnt⟩ := rfl
@[simp] theorem completeOk_xtType (s : State) : (completeOk s).xtType = s.xtType := rfl
@[simp] theorem completeOk_xtLen (s : State) : (completeOk s).xtLen = s.xtLen := rfl

@[simp] theorem raiseError_buf (e : DecodeError) (s : State) : (raiseError e s).buf = s.buf := rfl
@[simp] theorem raiseError_out (e : DecodeError) (s : State) : (raiseError e s).out = s.out := rfl
@[simp] theorem raiseError_len (e : DecodeError) (s : State) : (raiseError e s).len = s.len := rfl
@[simp] theorem raiseError_cmd (e : DecodeError) (s : State) : (raiseError e s).cmd = s.cmd := rfl
@[simp] theorem raiseError_off (e : DecodeError) (s : State) : (raiseError e s).off = s.off := rfl
@[simp] theorem raiseError_tsInSec (e : DecodeError) (s : State) : (raiseError e s).tsInSec = s.tsInSec := rfl
@[simp] theorem raiseError_tsInFrac (e : DecodeError) (s : State) : (raiseError e s).tsInFrac = s.tsInFrac := rfl
@[simp] theorem raiseError_status (e : DecodeError) (s : State) : (raiseError e s).status = .err := rfl
@[simp] theorem raiseError_errKind (e : DecodeError) (s : State) : (raiseError e s).errKind = e.kind := rfl
@[simp] theorem raiseError_errNeed (e : DecodeError) (s : State) : (raiseError e s).errNeed = e.need := rfl
@[simp] theorem raiseError_errHave (e : DecodeError) (s : State) : (raiseError e s).errHave = e.have_ := rfl
@[simp] theorem raiseError_errN (e : DecodeError) (s : State) : (raiseError e s).errN = e.n := rfl
@[simp] theorem raiseError_resid (e : DecodeError) (s : State) : (raiseError e s).resid = none := rfl
@[simp] theorem raiseError_pkt (e : DecodeError) (s : State) : (raiseError e s).pkt = .novalue := rfl
@[simp] theorem raiseError_ext1Valid (e : DecodeError) (s : State) : (raiseError e s).ext1Valid = none := rfl
@[simp] theorem raiseError_ext2Valid (e : DecodeError) (s : State) : (raiseError e s).ext2Valid = none := rfl
@[simp] theorem raiseError_authValid (e : DecodeError) (s : State) : (raiseError e s).authValid = none := rfl
@[simp] theorem raiseError_tsdSec (e : DecodeError) (s : State) : (raiseError e s).tsdSec = none := rfl
@[simp] theorem raiseError_tsdFrac (e : DecodeError) (s : State) : (raiseError e s).tsdFrac = none := rfl
@[simp] theorem raiseError_pc (e : DecodeError) (s : State) : (raiseError e s).pc = ⟨.idle, none, none⟩ := rfl
@[simp] theorem raiseError_xtType (e : DecodeError) (s : State) : (raiseError e s).xtType = none := rfl
@[simp] theorem raiseError_xtLen (e : DecodeError) (s : State) : (raiseError e s).xtLen = none := rfl

@[simp] theorem State.setPc_buf (s : State) (ph : Phase) (p : BitVec 8) (c : BitVec 2) : (s.setPc ph p c).buf = s.buf := rfl
@[simp] theorem State.setPc_out (s : State) (ph : Phase) (p : BitVec 8) (c : BitVec 2) : (s.setPc ph p c).out = s.out := rfl
@[simp] theorem State.setPc_len (s : State) (ph : Phase) (p : BitVec 8) (c : BitVec 2) : (s.setPc ph p c).len = s.len := rfl
@[simp] theorem State.setPc_cmd (s : State) (ph : Phase) (p : BitVec 8) (c : BitVec 2) : (s.setPc ph p c).cmd = s.cmd := rfl
@[simp] theorem State.setPc_off (s : State) (ph : Phase) (p : BitVec 8) (c : BitVec 2) : (s.setPc ph p c).off = s.off := rfl
@[simp] theorem State.setPc_tsInSec (s : State) (ph : Phase) (p : BitVec 8) (c : BitVec 2) : (s.setPc ph p c).tsInSec = s.tsInSec := rfl
@[simp] theorem State.setPc_tsInFrac (s : State) (ph : Phase) (p : BitVec 8) (c : BitVec 2) : (s.setPc ph p c).tsInFrac = s.tsInFrac := rfl
@[simp] theorem State.setPc_status (s : State) (ph : Phase) (p : BitVec 8) (c : BitVec 2) : (s.setPc ph p c).status = s.status := rfl
@[simp] theorem State.setPc_errKind (s : State) (ph : Phase) (p : BitVec 8) (c : BitVec 2) : (s.setPc ph p c).errKind = s.errKind := rfl
@[simp] theorem State.setPc_errNeed (s : State) (ph : Phase) (p : BitVec 8) (c : BitVec 2) : (s.setPc ph p c).errNeed = s.errNeed := rfl
@[simp] theorem State.setPc_errHave (s : State) (ph : Phase) (p : BitVec 8) (c : BitVec 2) : (s.setPc ph p c).errHave = s.errHave := rfl
@[simp] theorem State.setPc_errN (s : State) (ph : Phase) (p : BitVec 8) (c : BitVec 2) : (s.setPc ph p c).errN = s.errN := rfl
@[simp] theorem State.setPc_resid (s : State) (ph : Phase) (p : BitVec 8) (c : BitVec 2) : (s.setPc ph p c).resid = s.resid := rfl
@[simp] theorem State.setPc_pkt (s : State) (ph : Phase) (p : BitVec 8) (c : BitVec 2) : (s.setPc ph p c).pkt = s.pkt := rfl
@[simp] theorem State.setPc_ext1Valid (s : State) (ph : Phase) (p : BitVec 8) (c : BitVec 2) : (s.setPc ph p c).ext1Valid = s.ext1Valid := rfl
@[simp] theorem State.setPc_ext2Valid (s : State) (ph : Phase) (p : BitVec 8) (c : BitVec 2) : (s.setPc ph p c).ext2Valid = s.ext2Valid := rfl
@[simp] theorem State.setPc_authValid (s : State) (ph : Phase) (p : BitVec 8) (c : BitVec 2) : (s.setPc ph p c).authValid = s.authValid := rfl
@[simp] theorem State.setPc_tsdSec (s : State) (ph : Phase) (p : BitVec 8) (c : BitVec 2) : (s.setPc ph p c).tsdSec = s.tsdSec := rfl
@[simp] theorem State.setPc_tsdFrac (s : State) (ph : Phase) (p : BitVec 8) (c : BitVec 2) : (s.setPc ph p c).tsdFrac = s.tsdFrac := rfl
@[simp] theorem State.setPc_pc (s : State) (ph : Phase) (p : BitVec 8) (c : BitVec 2) : (s.setPc ph p c).pc = ⟨ph, some p, some c⟩ := rfl
@[simp] theorem State.setPc_xtType (s : State) (ph : Phase) (p : BitVec 8) (c : BitVec 2) : (s.setPc ph p c).xtType = s.xtType := rfl
@[simp] theorem State.setPc_xtLen (s : State) (ph : Phase) (p : BitVec 8) (c : BitVec 2) : (s.setPc ph p c).xtLen = s.xtLen := rfl

@[simp] theorem State.setPhase_buf (s : State) (ph : Phase) : (s.setPhase ph).buf = s.buf := rfl
@[simp] theorem State.setPhase_out (s : State) (ph : Phase) : (s.setPhase ph).out = s.out := rfl
@[simp] theorem State.setPhase_len (s : State) (ph : Phase) : (s.setPhase ph).len = s.len := rfl
@[simp] theorem State.setPhase_cmd (s : State) (ph : Phase) : (s.setPhase ph).cmd = s.cmd := rfl
@[simp] theorem State.setPhase_off (s : State) (ph : Phase) : (s.setPhase ph).off = s.off := rfl
@[simp] theorem State.setPhase_tsInSec (s : State) (ph : Phase) : (s.setPhase ph).tsInSec = s.tsInSec := rfl
@[simp] theorem State.setPhase_tsInFrac (s : State) (ph : Phase) : (s.setPhase ph).tsInFrac = s.tsInFrac := rfl
@[simp] theorem State.setPhase_status (s : State) (ph : Phase) : (s.setPhase ph).status = s.status := rfl
@[simp] theorem State.setPhase_errKind (s : State) (ph : Phase) : (s.setPhase ph).errKind = s.errKind := rfl
@[simp] theorem State.setPhase_errNeed (s : State) (ph : Phase) : (s.setPhase ph).errNeed = s.errNeed := rfl
@[simp] theorem State.setPhase_errHave (s : State) (ph : Phase) : (s.setPhase ph).errHave = s.errHave := rfl
@[simp] theorem State.setPhase_errN (s : State) (ph : Phase) : (s.setPhase ph).errN = s.errN := rfl
@[simp] theorem State.setPhase_resid (s : State) (ph : Phase) : (s.setPhase ph).resid = s.resid := rfl
@[simp] theorem State.setPhase_pkt (s : State) (ph : Phase) : (s.setPhase ph).pkt = s.pkt := rfl
@[simp] theorem State.setPhase_ext1Valid (s : State) (ph : Phase) : (s.setPhase ph).ext1Valid = s.ext1Valid := rfl
@[simp] theorem State.setPhase_ext2Valid (s : State) (ph : Phase) : (s.setPhase ph).ext2Valid = s.ext2Valid := rfl
@[simp] theorem State.setPhase_authValid (s : State) (ph : Phase) : (s.setPhase ph).authValid = s.authValid := rfl
@[simp] theorem State.setPhase_tsdSec (s : State) (ph : Phase) : (s.setPhase ph).tsdSec = s.tsdSec := rfl
@[simp] theorem State.setPhase_tsdFrac (s : State) (ph : Phase) : (s.setPhase ph).tsdFrac = s.tsdFrac := rfl
@[simp] theorem State.setPhase_pc (s : State) (ph : Phase) : (s.setPhase ph).pc = ⟨ph, s.pc.pos, s.pc.extcnt⟩ := rfl
@[simp] theorem State.setPhase_xtType (s : State) (ph : Phase) : (s.setPhase ph).xtType = s.xtType := rfl
@[simp] theorem State.setPhase_xtLen (s : State) (ph : Phase) : (s.setPhase ph).xtLen = s.xtLen := rfl

@[simp] theorem State.setPhasePos_buf (s : State) (ph : Phase) (p : BitVec 8) : (s.setPhasePos ph p).buf = s.buf := rfl
@[simp] theorem State.setPhasePos_out (s : State) (ph : Phase) (p : BitVec 8) : (s.setPhasePos ph p).out = s.out := rfl
@[simp] theorem State.setPhasePos_len (s : State) (ph : Phase) (p : BitVec 8) : (s.setPhasePos ph p).len = s.len := rfl
@[simp] theorem State.setPhasePos_cmd (s : State) (ph : Phase) (p : BitVec 8) : (s.setPhasePos ph p).cmd = s.cmd := rfl
@[simp] theorem State.setPhasePos_off (s : State) (ph : Phase) (p : BitVec 8) : (s.setPhasePos ph p).off = s.off := rfl
@[simp] theorem State.setPhasePos_tsInSec (s : State) (ph : Phase) (p : BitVec 8) : (s.setPhasePos ph p).tsInSec = s.tsInSec := rfl
@[simp] theorem State.setPhasePos_tsInFrac (s : State) (ph : Phase) (p : BitVec 8) : (s.setPhasePos ph p).tsInFrac = s.tsInFrac := rfl
@[simp] theorem State.setPhasePos_status (s : State) (ph : Phase) (p : BitVec 8) : (s.setPhasePos ph p).status = s.status := rfl
@[simp] theorem State.setPhasePos_errKind (s : State) (ph : Phase) (p : BitVec 8) : (s.setPhasePos ph p).errKind = s.errKind := rfl
@[simp] theorem State.setPhasePos_errNeed (s : State) (ph : Phase) (p : BitVec 8) : (s.setPhasePos ph p).errNeed = s.errNeed := rfl
@[simp] theorem State.setPhasePos_errHave (s : State) (ph : Phase) (p : BitVec 8) : (s.setPhasePos ph p).errHave = s.errHave := rfl
@[simp] theorem State.setPhasePos_errN (s : State) (ph : Phase) (p : BitVec 8) : (s.setPhasePos ph p).errN = s.errN := rfl
@[simp] theorem State.setPhasePos_resid (s : State) (ph : Phase) (p : BitVec 8) : (s.setPhasePos ph p).resid = s.resid := rfl
@[simp] theorem State.setPhasePos_pkt (s : State) (ph : Phase) (p : BitVec 8) : (s.setPhasePos ph p).pkt = s.pkt := rfl
@[simp] theorem State.setPhasePos_ext1Valid (s : State) (ph : Phase) (p : BitVec 8) : (s.setPhasePos ph p).ext1Valid = s.ext1Valid := rfl
@[simp] theorem State.setPhasePos_ext2Valid (s : State) (ph : Phase) (p : BitVec 8) : (s.setPhasePos ph p).ext2Valid = s.ext2Valid := rfl
@[simp] theorem State.setPhasePos_authValid (s : State) (ph : Phase) (p : BitVec 8) : (s.setPhasePos ph p).authValid = s.authValid := rfl
@[simp] theorem State.setPhasePos_tsdSec (s : State) (ph : Phase) (p : BitVec 8) : (s.setPhasePos ph p).tsdSec = s.tsdSec := rfl
@[simp] theorem State.setPhasePos_tsdFrac (s : State) (ph : Phase) (p : BitVec 8) : (s.setPhasePos ph p).tsdFrac = s.tsdFrac := rfl
@[simp] theorem State.setPhasePos_pc (s : State) (ph : Phase) (p : BitVec 8) : (s.setPhasePos ph p).pc = ⟨ph, some p, s.pc.extcnt⟩ := rfl
@[simp] theorem State.setPhasePos_xtType (s : State) (ph : Phase) (p : BitVec 8) : (s.setPhasePos ph p).xtType = s.xtType := rfl
@[simp] theorem State.setPhasePos_xtLen (s : State) (ph : Phase) (p : BitVec 8) : (s.setPhasePos ph p).xtLen = s.xtLen := rfl

end Sys2Proof.Machine
end

