-- ==== Sys2Proof/Laws/Ops.lean ====
section
/-! SUPPORT. For each shared operation, what it can do, said once: the steps' proofs cite these and unfold no operation. -/

namespace Sys2Proof.Machine

/-! ## Eff -/

@[simp] theorem Eff.bind_val {α β : Type} (a : α) (k : α → Eff β) : (Eff.val a).bind k = k a := rfl
@[simp] theorem Eff.bind_raised {α β : Type} (e : DecodeError) (k : α → Eff β) :
    (Eff.raised e : Eff α).bind k = .raised e := rfl
@[simp] theorem Eff.bind_stop {α β : Type} (f : Fault) (k : α → Eff β) : (Eff.stop f : Eff α).bind k = .stop f := rfl
@[simp] theorem Eff.ofOption_some {α : Type} (a : α) (f : Fault) : Eff.ofOption (some a) f = .val a := rfl
@[simp] theorem Eff.ofOption_none {α : Type} (f : Fault) : Eff.ofOption (none : Option α) f = .stop f := rfl
@[simp] theorem Eff.check_true (e : DecodeError) : Eff.check true e = .val () := rfl
@[simp] theorem Eff.check_false (e : DecodeError) : Eff.check false e = .raised e := rfl
@[simp] theorem Eff.finish_val {α : Type} (a : α) (s : State) (k : α → State) : (Eff.val a).finish s k = .next (k a) := rfl
@[simp] theorem Eff.finish_raised {α : Type} (e : DecodeError) (s : State) (k : α → State) :
    (Eff.raised e : Eff α).finish s k = .next (raiseError e s) := rfl
@[simp] theorem Eff.finish_stop {α : Type} (f : Fault) (s : State) (k : α → State) :
    (Eff.stop f : Eff α).finish s k = .fault f := rfl

/-- A sequence yields a value exactly when both parts do. -/
theorem Eff.bind_eq_val {α β : Type} {x : Eff α} {k : α → Eff β} {b : β} :
    x.bind k = .val b ↔ ∃ a, x = .val a ∧ k a = .val b := by
  cases x <;> simp

/-- A sequence raises when its first part does, or when the rest does. -/
theorem Eff.bind_eq_raised {α β : Type} {x : Eff α} {k : α → Eff β} {e : DecodeError} :
    x.bind k = .raised e ↔ x = .raised e ∨ ∃ a, x = .val a ∧ k a = .raised e := by
  cases x <;> simp

/-- Everything the end of a step can do when it answers a next state. -/
theorem Eff.finish_eq_next {α : Type} {x : Eff α} {s t : State} {k : α → State} :
    x.finish s k = .next t ↔ (∃ a, x = .val a ∧ t = k a) ∨ ∃ e, x = .raised e ∧ t = raiseError e s := by
  cases x <;> simp [Eff.finish, eq_comm]

/-- A check yields its unit value exactly when its condition holds. -/
theorem Eff.check_eq_val {b : Bool} {e : DecodeError} {u : Unit} : Eff.check b e = .val u ↔ b = true := by
  cases b <;> simp

/-- A check raises exactly its own error, when its condition fails. -/
theorem Eff.check_eq_raised {b : Bool} {e e' : DecodeError} : Eff.check b e = .raised e' ↔ b = false ∧ e = e' := by
  cases b <;> simp

/-! ## Operand reads -/

/-- The guard of `MemRead` passes exactly when the bytes lie inside `LEN` and inside `BUF` (R65). -/
theorem readable_eq_val {s : State} {a n : Nat} {u : Unit} :
    readable s a n = .val u ↔ a + n ≤ s.len.toNat ∧ a + n ≤ 128 := by
  unfold readable
  simp only [Config.bufSize]
  split
  · simp; omega
  · split
    · simp; omega
    · simp; omega

/-- The guard never raises a decode error. -/
theorem readable_ne_raised {s : State} {a n : Nat} {e : DecodeError} : readable s a n ≠ .raised e := by
  unfold readable
  split
  · simp
  · split <;> simp

theorem readable_val {s : State} {a n : Nat} (h : a + n ≤ s.len.toNat) (h' : a + n ≤ 128) : readable s a n = .val () :=
  readable_eq_val.mpr ⟨h, h'⟩

theorem readU8_val {s : State} {a : Nat} (h : a + 1 ≤ s.len.toNat) (h' : a + 1 ≤ 128) :
    readU8 s a = .val (bufRead s.buf a) := by
  simp [readU8, memRead, readable_val h h', bufBytes, beNat, List.range_succ]

theorem readU16_val {s : State} {a : Nat} (h : a + 2 ≤ s.len.toNat) (h' : a + 2 ≤ 128) :
    readU16 s a = .val (BitVec.ofNat 16 (beNat (bufBytes s.buf a 2))) := by
  simp [readU16, memRead, readable_val h h']

theorem readU32_val {s : State} {a : Nat} (h : a + 4 ≤ s.len.toNat) (h' : a + 4 ≤ 128) :
    readU32 s a = .val (BitVec.ofNat 32 (beNat (bufBytes s.buf a 4))) := by
  simp [readU32, memRead, readable_val h h']

theorem readDigest_val {s : State} {a : Nat} (h : a + 16 ≤ s.len.toNat) (h' : a + 16 ≤ 128) :
    readDigest s a = .val (Vector.ofFn fun i => bufRead s.buf (a + i.val)) := by
  simp [readDigest, readable_val h h']

theorem memRead_ne_raised {s : State} {a n : Nat} {e : DecodeError} : memRead s a n ≠ .raised e := by
  simp [memRead, Eff.bind_eq_raised, readable_ne_raised]

theorem readU8_ne_raised {s : State} {a : Nat} {e : DecodeError} : readU8 s a ≠ .raised e := by
  simp [readU8, Eff.bind_eq_raised, memRead_ne_raised]

theorem readU16_ne_raised {s : State} {a : Nat} {e : DecodeError} : readU16 s a ≠ .raised e := by
  simp [readU16, Eff.bind_eq_raised, memRead_ne_raised]

theorem readU32_ne_raised {s : State} {a : Nat} {e : DecodeError} : readU32 s a ≠ .raised e := by
  simp [readU32, Eff.bind_eq_raised, memRead_ne_raised]

theorem readDigest_ne_raised {s : State} {a : Nat} {e : DecodeError} : readDigest s a ≠ .raised e := by
  simp [readDigest, Eff.bind_eq_raised, readable_ne_raised]

/-- The two big-endian words at an offset of `BUF` (R131). -/
def bufTs (m : Memory) (a : Nat) : Timestamp :=
  ⟨BitVec.ofNat 32 (beNat (bufBytes m a 4)), BitVec.ofNat 32 (beNat (bufBytes m (a + 4) 4))⟩

/-- `ts_decode` inside the received bytes (R131). -/
theorem tsDecode_val {s : State} {off : Nat} (h : off + 8 ≤ s.len.toNat) (h' : off + 8 ≤ 128) :
    tsDecode s off = .val (bufTs s.buf off) := by
  simp [tsDecode, h, readU32_val (s := s) (a := off) (by omega) (by omega),
    readU32_val (s := s) (a := off + 4) (by omega) (by omega), bufTs]

/-- `ts_decode` past the received bytes (R131). -/
theorem tsDecode_raised {s : State} {off : Nat} (h : s.len.toNat < off + 8) :
    tsDecode s off = .raised (.truncated (off + 8) s.len.toNat) := by
  have : ¬ off + 8 ≤ s.len.toNat := by omega
  simp [tsDecode, this]

/-! ## The parse position -/

theorem readPos_val {s : State} {p : BitVec 8} (h : s.pc.pos = some p) : readPos s = .val p.toNat := by
  simp [readPos, h]

theorem readExtcnt_val {s : State} {c : BitVec 2} (h : s.pc.extcnt = some c) : readExtcnt s = .val c.toNat := by
  simp [readExtcnt, h]

theorem readPos_ne_raised {s : State} {e : DecodeError} : readPos s ≠ .raised e := by
  unfold readPos; cases s.pc.pos <;> simp

theorem readExtcnt_ne_raised {s : State} {e : DecodeError} : readExtcnt s ≠ .raised e := by
  unfold readExtcnt; cases s.pc.extcnt <;> simp

theorem readXtType_ne_raised {s : State} {e : DecodeError} : readXtType s ≠ .raised e := by
  unfold readXtType; cases s.xtType <;> simp

theorem readXtLen_ne_raised {s : State} {e : DecodeError} : readXtLen s ≠ .raised e := by
  unfold readXtLen; cases s.xtLen <;> simp

theorem remaining_val {s : State} {p : BitVec 8} (h : s.pc.pos = some p) (hp : p.toNat ≤ s.len.toNat) :
    remaining s = .val (s.len.toNat - p.toNat) := by
  simp [remaining, readPos_val h, hp]

theorem remaining_ne_raised {s : State} {e : DecodeError} : remaining s ≠ .raised e := by
  simp only [remaining, ne_eq, Eff.bind_eq_raised, readPos_ne_raised, false_or, not_exists, not_and]
  intro p _
  split <;> simp

theorem newPos_val {n : Nat} (h : n ≤ 128) : newPos n = .val (BitVec.ofNat 8 n) := by
  simp [newPos, h]

theorem newPos_ne_raised {n : Nat} {e : DecodeError} : newPos n ≠ .raised e := by
  unfold newPos; split <;> simp

/-- The descriptor written is the one the count selects (R183). -/
theorem commitExt_eq_val {s s' : State} {c : Nat} {t l : Half} {o : Byte} :
    commitExt s c t l o = .val s' ↔ (c = 0 ∧ s' = commitExt1 s t l o) ∨ (c = 1 ∧ s' = commitExt2 s t l o) := by
  unfold commitExt
  split
  · rename_i h; simp [h, eq_comm]
  · split
    · rename_i h; simp [h, eq_comm]
    · rename_i h h'; simp [h, h']

theorem commitExt_ne_raised {s : State} {c : Nat} {t l : Half} {o : Byte} {e : DecodeError} :
    commitExt s c t l o ≠ .raised e := by
  unfold commitExt
  split
  · simp
  · split <;> simp

/-! ## START -/

/-- Everything a START of a command other than NOP can do when it answers a next state (R210, R216, R221). -/
theorem onStart_eq_next {s t : State} {body : State → Outcome} :
    onStart s body = .next t ↔
      (s.status = .busy ∧ t = s) ∨
      (s.status ≠ .busy ∧ s.len.toNat ≤ 128 ∧ body (startAction s) = .next t) := by
  unfold onStart
  split
  · rename_i h
    simp [h, eq_comm]
  · rename_i h
    split
    · rename_i h'
      have : ¬ s.len.toNat ≤ 128 := by simpa using h'
      simp [h, this]
    · rename_i h'
      have : s.len.toNat ≤ 128 := by simpa using h'
      simp [h, this]

theorem onStart_accepted {s : State} {body : State → Outcome} (h : s.status ≠ .busy) (hl : s.len.toNat ≤ 128) :
    onStart s body = body (startAction s) := by
  have : ¬ 128 < s.len.toNat := by omega
  simp [onStart, h, this]

end Sys2Proof.Machine
end

