-- ==== Sys2Proof/Laws/PerInstr.lean ====
section
/-! SUPPORT. Laws about the instructions as syntax, one lemma per constructor: decoding the encoding of an instruction gives
it back. -/

namespace Sys2Proof.Laws.DecodeEncode

/-- The decoder reads an instruction's own selector as that instruction (R105, R110, R98). -/
def Statement (i : Instr) : Prop := decode (encode i) = .ok i

theorem nop : Statement .nop := rfl
theorem pktDec : Statement .pktDec := rfl
theorem tsDec : Statement .tsDec := rfl
theorem tsEnc : Statement .tsEnc := rfl
theorem chkHdr12 : Statement .chkHdr12 := rfl
theorem unpkB0 : Statement .unpkB0 := rfl
theorem ldStratum : Statement .ldStratum := rfl
theorem ldPoll : Statement .ldPoll := rfl
theorem ldPrec : Statement .ldPrec := rfl
theorem ldRdelay : Statement .ldRdelay := rfl
theorem ldRdisp : Statement .ldRdisp := rfl
theorem ldRefid : Statement .ldRefid := rfl
theorem tsRef : Statement .tsRef := rfl
theorem tsOrg : Statement .tsOrg := rfl
theorem tsRcv : Statement .tsRcv := rfl
theorem tsXmt : Statement .tsXmt := rfl
theorem extScan : Statement .extScan := rfl
theorem extHdr : Statement .extHdr := rfl
theorem extVal : Statement .extVal := rfl
theorem authLd : Statement .authLd := rfl
theorem finChk : Statement .finChk := rfl
theorem modeReserved : Statement .modeReserved := rfl
theorem modeSymmetricActive : Statement .modeSymmetricActive := rfl
theorem modeSymmetricPassive : Statement .modeSymmetricPassive := rfl
theorem modeClient : Statement .modeClient := rfl
theorem modeServer : Statement .modeServer := rfl
theorem modeBroadcast : Statement .modeBroadcast := rfl
theorem modeControl : Statement .modeControl := rfl
theorem modeReservedPrivate : Statement .modeReservedPrivate := rfl

end Sys2Proof.Laws.DecodeEncode
end

