-- ==== Sys2Proof/Laws/Step.lean ====
section
/-! SUPPORT. What a step, the START event and the engine's moves can do, said once. -/

namespace Sys2Proof.Machine

/-- The START event runs the command that `CMD` selects. -/
theorem startEvent_eq (s : State) : startEvent s = exec (decodeCmd s.cmd) s := rfl

/-- A step of a machine that is not BUSY is the START event. -/
theorem step_of_not_busy {s : State} (h : s.status ≠ .busy) : step s = startEvent s := by
  simp [step, State.selector, startEvent, h]

/-- A step of a BUSY machine runs the step its phase selects. -/
theorem step_of_busy {s : State} {i : Instr} (h : s.status = .busy) (hd : decodePhase s.pc.phase = .ok i) :
    step s = exec i s := by
  simp [step, State.selector, runSelected, decode, h, hd, Except.toOption]

theorem engineMoves_of_not_busy {s : State} (h : s.status ≠ .busy) (k : Nat) : engineMoves k s = .next s := by
  cases k <;> simp [engineMoves, h]

theorem engineMoves_succ {s t : State} (k : Nat) (h : s.status = .busy) (hs : step s = .next t) :
    engineMoves (k + 1) s = engineMoves k t := by
  simp [engineMoves, h, hs]

end Sys2Proof.Machine
end

