-- ==== Sys2Proof/Tests/Slice0.lean ====
section
/-! SUPPORT. The model's own tests. Expected values come from spec/95_test_vectors.md (the vector is named in each comment)
or from the encodings of spec/30_encoding.md. The last section shows, for each statement with hypotheses, a concrete input
that meets them. -/

namespace Sys2Proof.Tests

open Sys2Proof.Machine

/-! ## Helpers -/

/-- The next state, if there is one. -/
def nextOf (o : Outcome) : Option State :=
  match o with
  | .next t => some t
  | .fault _ => none
  | .refused _ => none

/-- One field of the next state. -/
def field {α : Type} (o : Outcome) (f : State → α) : Option α := (nextOf o).map f

/-- The refusal, if there is one. -/
def refusalOf (o : Outcome) : Option Refusal :=
  match o with
  | .next _ => none
  | .fault _ => none
  | .refused r => some r

/-- The fault, if there is one. -/
def faultOf (o : Outcome) : Option Fault :=
  match o with
  | .next _ => none
  | .fault f => some f
  | .refused _ => none

/-- An idle machine with bytes at an offset of `BUF` and a length. -/
def idle (at_ : Nat) (bytes : List Byte) (len : BitVec 8) : State :=
  { State.reset with buf := bufLoad [] at_ bytes, len := len }

/-- The same machine in the middle of a `PKT.DEC`. -/
def parsing (p : Phase) (pos : BitVec 8) (cnt : BitVec 2) (at_ : Nat) (bytes : List Byte) (len : BitVec 8) : State :=
  { idle at_ bytes len with status := .busy, pc := ⟨p, some pos, some cnt⟩ }

/-! ## Well-formedness -/

theorem test_wf_operation : Instr.wellFormed .extVal = true := by decide
theorem test_wf_mode_row_is_no_operation : Instr.wellFormed .modeClient = false := by decide

/-- A header of zeros. -/
def zeroTs : Timestamp := ⟨0, 0⟩
/-- A datagram with the given sections. -/
def dgram (exts : List ExtField) (auth : Option AuthTrailer) : Datagram :=
  ⟨0, 4, 3, 2, 6, 0xEC, 0x00000CCD, 0x00014000, 0x47505300, ⟨0xE8A1B2C3, 0x40000000⟩, zeroTs, zeroTs,
    ⟨0xE8A1B2C4, 0x80000001⟩, exts, auth⟩
/-- The trailer of P2. -/
def trailerP2 : AuthTrailer :=
  ⟨0x2A, #v[0xA0, 0xA1, 0xA2, 0xA3, 0xA4, 0xA5, 0xA6, 0xA7, 0xA8, 0xA9, 0xAA, 0xAB, 0xAC, 0xAD, 0xAE, 0xAF]⟩
/-- The extension field of P2. -/
def extP2 : ExtField := ⟨0x0104, 8, [0xDE, 0xAD, 0xBE, 0xEF, 1, 2, 3, 4]⟩
/-- A well-formed field of four bytes. -/
def ext4 : ExtField := ⟨1, 4, [1, 2, 3, 4]⟩

theorem test_wf_datagram_p2 : (dgram [extP2] (some trailerP2)).wellFormed = true := by decide
theorem test_wf_size_p2 : (dgram [extP2] (some trailerP2)).size = 80 := by decide
/-- `L = 3` is below `EXT_MIN_L`. -/
theorem test_wf_refuses_short_field : (dgram [⟨1, 3, [1, 2, 3]⟩] none).wellFormed = false := by decide
/-- The declared length does not count the value bytes. -/
theorem test_wf_refuses_wrong_length : (dgram [⟨1, 5, [1, 2, 3, 4]⟩] none).wellFormed = false := by decide
/-- Three fields. -/
theorem test_wf_refuses_three_fields : (dgram [ext4, ext4, ext4] none).wellFormed = false := by decide
/-- 129 bytes. -/
theorem test_wf_refuses_over_bufsize : (dgram [⟨1, 77, List.replicate 77 0⟩] none).wellFormed = false := by decide
/-- A 20-byte tail is a trailer (X9). -/
theorem test_wf_refuses_lookalike : (dgram [⟨1, 16, List.replicate 16 0⟩] none).wellFormed = false := by decide

/-! ## Decoding: words written out from R105, R98, R91 and R62 -/

theorem test_decode_nop : decodeTableWord 8 0b00 = some .nop := by decide
theorem test_decode_pktDec : decodeTableWord 8 0b01 = some .pktDec := by decide
theorem test_decode_tsDec : decodeTableWord 8 0b10 = some .tsDec := by decide
theorem test_decode_tsEnc : decodeTableWord 2 0b11 = some .tsEnc := by decide
/-- H3v: `0x23` is Client, as the format ENUM reads byte 0. -/
theorem test_decode_client_byte : decodeTableWord 8 0b00100011 = some .modeClient := by decide
theorem test_decode_server_row : decodeTableWord 8 0b00000100 = some .modeServer := by decide
theorem test_decode_broadcast_row : decodeTableWord 8 0b00000101 = some .modeBroadcast := by decide
theorem test_decode_control_row : decodeTableWord 8 0b00000110 = some .modeControl := by decide
theorem test_decode_private_row : decodeTableWord 8 0b00000111 = some .modeReservedPrivate := by decide
/-- H14v, H8v, H9v: modes 0, 1, 2 under a nonzero leap field. -/
theorem test_decode_reserved_byte : decodeTableWord 8 0b11000000 = some .modeReserved := by decide
theorem test_decode_active_byte : decodeTableWord 8 0b01100001 = some .modeSymmetricActive := by decide
theorem test_decode_passive_byte : decodeTableWord 8 0b10100010 = some .modeSymmetricPassive := by decide
/-- A row of mask 0 has no selecting bits (R111). -/
theorem test_decode_refuses_step_bits : decodeTableWord 32 0 = none := by decide
theorem test_decode_refuses_idle : decode (.phase .idle) = .error .noStepInIdle := rfl
/-- Each phase selects its step (R110). -/
theorem test_decode_phases :
    [Phase.chk, .b0, .stratum, .poll, .prec, .rdelay, .rdisp, .refid, .tsref, .tsorg, .tsrcv, .tsxmt, .scan, .exthdr,
      .extval, .auth, .fin].map (fun p => (decode (.phase p)).toOption) =
    [some .chkHdr12, some .unpkB0, some .ldStratum, some .ldPoll, some .ldPrec, some .ldRdelay, some .ldRdisp,
      some .ldRefid, some .tsRef, some .tsOrg, some .tsRcv, some .tsXmt, some .extScan, some .extHdr, some .extVal,
      some .authLd, some .finChk] := by decide
/-- The host's word for a command runs as the first instruction after reset. -/
theorem test_withFetchWord_runs : field (step (State.reset.withFetchWord 8 1)) (fun t => t.status) = some .busy := by decide
/-- The bytes of P2's sections (R96, R97, R106). -/
theorem test_listing_bytes_ext : Directive.bytes (.ext extP2) = [1, 4, 0, 8, 0xDE, 0xAD, 0xBE, 0xEF, 1, 2, 3, 4] := by decide
theorem test_listing_bytes_b0 : Directive.bytes (.b0 0 4 3) = [0x23] := by decide
theorem test_listing_bytes_rdelay : Directive.bytes (.rdelay 0x12345678) = [0x12, 0x34, 0x56, 0x78] := by decide

/-! ## Commands -/

/-- Q1: START of NOP after reset. -/
theorem test_nop_after_reset : field (hostMove .raiseStart State.reset) (fun t => decide (t = State.reset)) = some true := by
  decide
/-- R210: flags cleared, position at `(P_CHK, 0, 0)`. -/
theorem test_pktDec_begins :
    field (exec .pktDec (idle 0 [0x23] 48)) (fun t => (t.pc, t.ext1Valid)) = some (⟨.chk, some 0, some 0⟩, some false) := by decide
/-- Q5: `LEN = 129`. -/
theorem test_pktDec_refuses_129 : refusalOf (exec .pktDec (idle 0 [] 129)) = some .lenOverBufSize := by decide
/-- T14: an unaligned offset. -/
theorem test_tsDec_t14 :
    field (exec .tsDec { idle 3 [0, 0, 0, 1, 0, 0, 0, 2] 11 with off := 3 }) (fun t => (t.status, t.tsdSec, t.tsdFrac))
      = some (.ok, some 1, some 2) := by decide
/-- T17: the largest `need`, 263. -/
theorem test_tsDec_t17 :
    field (exec .tsDec { idle 0 [] 128 with off := 255 }) (fun t => (t.errKind, t.errNeed, t.errHave, t.tsdSec))
      = some (.truncated, some 263, some 128, none) := by decide
/-- T9: the byte order of both words. -/
theorem test_tsEnc_t9 :
    field (exec .tsEnc { idle 0 [] 0 with tsInSec := 0x12345678, tsInFrac := 0x9ABCDEF0 })
      (fun t => (List.range 9).map (outRead t.out))
      = some [some 0x12, some 0x34, some 0x56, some 0x78, some 0x9A, some 0xBC, some 0xDE, some 0xF0, none] := by decide
/-- R40: the flags are not results of TS.ENC. -/
theorem test_tsEnc_flags : field (exec .tsEnc (idle 0 [] 0)) (fun t => t.ext1Valid) = some none := by decide

/-! ## Header steps -/

/-- H45v, H46v: `LEN = 11`. -/
theorem test_chk_eleven :
    field (exec .chkHdr12 (parsing .chk 0 0 0 [] 11)) (fun t => (t.status, t.errNeed, t.errHave, t.errN))
      = some (.err, some 12, some 11, none) := by decide
theorem test_chk_twelve : field (exec .chkHdr12 (parsing .chk 0 0 0 [] 12)) (fun t => t.pc.phase) = some .b0 := by decide
/-- H6v: `0xDC` is leap 3, version 3, mode 4. -/
theorem test_unpkB0_h6v :
    field (exec .unpkB0 (parsing .b0 0 0 0 [0xDC] 48)) (fun t => (t.pkt.leap, t.pkt.version, t.pkt.mode))
      = some (some 3, some 3, some 4) := by decide
/-- H17v: bytes 1 to 3 are `0F 0A FA`. -/
theorem test_ldStratum_h17v :
    field (exec .ldStratum (parsing .stratum 1 0 0 [0x23, 0x0F, 0x0A, 0xFA] 48)) (fun t => t.pkt.stratum) = some (some 15) := by
  decide
theorem test_ldPoll_h17v :
    field (exec .ldPoll (parsing .poll 2 0 0 [0x23, 0x0F, 0x0A, 0xFA] 48)) (fun t => t.pkt.poll) = some (some 10) := by decide
theorem test_ldPrec_h17v :
    field (exec .ldPrec (parsing .prec 3 0 0 [0x23, 0x0F, 0x0A, 0xFA] 48)) (fun t => t.pkt.precision.map (·.toInt))
      = some (some (-6)) := by decide
/-- H32v at bytes 4 to 7 and at bytes 8 to 11. -/
theorem test_ldRdelay_h32v :
    field (exec .ldRdelay (parsing .rdelay 4 0 4 [0x12, 0x34, 0x56, 0x78, 0xFF] 48)) (fun t => (t.pkt.rootDelay, t.pkt.rootDisp))
      = some (some 0x12345678, none) := by decide
theorem test_ldRdisp_h32v :
    field (exec .ldRdisp (parsing .rdisp 8 0 8 [0x12, 0x34, 0x56, 0x78, 0xFF] 48)) (fun t => (t.pkt.rootDisp, t.pc.pos))
      = some (some 0x12345678, some 12) := by decide
/-- H42v and H48v. -/
theorem test_ldRefid_h42v :
    field (exec .ldRefid (parsing .refid 12 0 12 [0x47, 0x50, 0x53, 0] 16)) (fun t => t.pkt.refId) = some (some 0x47505300) := by
  decide
theorem test_ldRefid_fifteen :
    field (exec .ldRefid (parsing .refid 12 0 12 [0x47, 0x50, 0x53, 0] 15)) (fun t => (t.errNeed, t.errHave, t.pkt.refId))
      = some (some 16, some 15, none) := by decide

/-! ## Timestamp steps (T21, and the boundaries of S3) -/

theorem test_tsRef_t21 :
    field (exec .tsRef (parsing .tsref 16 0 16 [0, 0, 0, 1, 0, 0, 0, 2] 24)) (fun t => (t.pkt.refTsSec, t.pkt.refTsFrac, t.pc.pos))
      = some (some 1, some 2, some 24) := by decide
theorem test_tsRef_23 :
    field (exec .tsRef (parsing .tsref 16 0 16 [] 23)) (fun t => (t.errNeed, t.errHave)) = some (some 24, some 23) := by decide
theorem test_tsOrg_t21 :
    field (exec .tsOrg (parsing .tsorg 24 0 24 [0xFF, 0xFF, 0xFF, 0xFF, 0, 0, 0, 0] 32)) (fun t => (t.pkt.orgTsSec, t.pkt.orgTsFrac))
      = some (some 0xFFFFFFFF, some 0) := by decide
theorem test_tsRcv_t21 :
    field (exec .tsRcv (parsing .tsrcv 32 0 32 [0x12, 0x34, 0x56, 0x78, 0x9A, 0xBC, 0xDE, 0xF0] 40))
      (fun t => (t.pkt.rcvTsSec, t.pkt.rcvTsFrac)) = some (some 0x12345678, some 0x9ABCDEF0) := by decide
theorem test_tsXmt_t21 :
    field (exec .tsXmt (parsing .tsxmt 40 0 40 [0x83, 0xAA, 0x7E, 0x80, 0x80, 0, 0, 0] 48))
      (fun t => (t.pkt.xmtTsSec, t.pkt.xmtTsFrac, t.pc.phase)) = some (some 0x83AA7E80, some 0x80000000, .scan) := by decide
/-- T22: one byte short. -/
theorem test_tsXmt_t22 :
    field (exec .tsXmt (parsing .tsxmt 40 0 40 [] 47)) (fun t => (t.errNeed, t.errHave)) = some (some 48, some 47) := by decide

/-! ## Extension fields and trailer -/

/-- The dispatch list at the end of section 2.3. -/
theorem test_extScan_dispatch :
    ([(48, 48, 0), (68, 48, 0), (84, 64, 2), (70, 64, 2), (51, 48, 0), (59, 56, 1), (52, 48, 0), (72, 48, 0), (128, 48, 0),
      (128, 128, 1)] : List (BitVec 8 × BitVec 8 × BitVec 2)).map
        (fun x => field (exec .extScan (parsing .scan x.2.1 x.2.2 0 [] x.1)) (fun t => t.pc.phase))
      = [some .fin, some .auth, some .auth, some .fin, some .fin, some .fin, some .exthdr, some .exthdr, some .exthdr,
         some .fin] := by decide
/-- P2: type `0x0104`, length 8. -/
theorem test_extHdr_p2 :
    field (exec .extHdr (parsing .exthdr 48 0 48 [1, 4, 0, 8] 80)) (fun t => (t.xtType, t.xtLen, t.pc.phase))
      = some (some 0x0104, some 8, .extval) := by decide
/-- X14: `L = 65535` would pass a 16-bit wrapping sum. -/
theorem test_extHdr_x14 :
    field (exec .extHdr (parsing .exthdr 48 0 48 [0, 1, 0xFF, 0xFF] 60)) (fun t => (t.errKind, t.errNeed))
      = some (.malformedExtension, none) := by decide
/-- P3: the first field ends at the odd position 57. -/
theorem test_extVal_p3_first :
    field (exec .extVal { parsing .extval 48 0 48 [] 65 with xtType := some 1, xtLen := some 5 })
      (fun t => (t.ext1Valid, t.pkt.ext1Off, t.pc, t.xtLen)) = some (some true, some 52, ⟨.scan, some 57, some 1⟩, none) := by decide
/-- P3: the second field. -/
theorem test_extVal_p3_second :
    field (exec .extVal { parsing .extval 57 1 48 [] 65 with xtType := some 2, xtLen := some 4 })
      (fun t => (t.ext2Valid, t.pkt.ext2Type, t.pkt.ext2Off, t.pc.pos)) = some (some true, some 2, some 61, some 65) := by decide
/-- P2: the trailer at 60. -/
theorem test_authLd_p2 :
    field (exec .authLd (parsing .auth 60 1 60 [0, 0, 0, 0x2A, 0xA0, 0xA1, 0xA2, 0xA3, 0xA4, 0xA5, 0xA6, 0xA7, 0xA8, 0xA9, 0xAA, 0xAB,
        0xAC, 0xAD, 0xAE, 0xAF] 80)) (fun t => (t.pkt.keyId, t.pkt.digest.map (·[15]), t.authValid, t.pc.pos))
      = some (some 0x2A, some 0xAF, some true, some 80) := by decide
/-- P4: six stray bytes. -/
theorem test_finChk_p4 :
    field (exec .finChk (parsing .fin 64 2 0 [] 70)) (fun t => (t.errKind, t.errN, t.errNeed, t.pc.phase))
      = some (.trailingGarbage, some 6, none, .idle) := by decide
theorem test_finChk_ok :
    field (exec .finChk (parsing .fin 48 0 0 [] 48)) (fun t => (t.status, t.resid)) = some (.ok, some 0) := by decide
/-- A guard of the model: a read past `LEN`, in a state no run reaches. -/
theorem test_guard_read_past_len : faultOf (exec .ldPoll (parsing .poll 2 0 0 [] 2)) = some .readPastLength := by decide

/-! ## The mode rows change nothing -/

theorem test_mode_rows : (List.map (fun i => field (exec i (idle 0 [0x23] 48)) (fun t => decide (t = idle 0 [0x23] 48)))
    [.modeReserved, .modeSymmetricActive, .modeSymmetricPassive, .modeClient, .modeServer, .modeBroadcast, .modeControl,
      .modeReservedPrivate]) = List.replicate 8 (some true) := by decide

/-! ## Command-level function, host side -/

/-- H0 with byte 0 given, and a tail. -/
def h0 (b : Byte) (tail : List Byte) : List Byte := b :: List.replicate 47 0 ++ tail
/-- The error of a decode. -/
def errOf (r : Except DecodeError Packet) : Option DecodeError :=
  match r with
  | .ok _ => none
  | .error e => some e
/-- One field of a decoded packet. -/
def pktField {α : Type} (r : Except DecodeError Packet) (f : Packet → α) : Option α :=
  match r with
  | .ok p => some (f p)
  | .error _ => none

/-- S2. -/
theorem test_pktDecode_s2 :
    pktField (pktDecode (h0 0x23 [])) (fun p => (p.mode, p.version, p.ext1, p.auth)) = some (.client, 4, none, none) := by decide
/-- X9: a tail of 20 bytes is a trailer even when it looks like a field. -/
theorem test_pktDecode_x9 :
    pktField (pktDecode (h0 0x23 [0, 1, 0, 16, 0, 1, 2, 3, 4, 5, 6, 7, 8, 9, 10, 11, 12, 13, 14, 15]))
      (fun p => (p.ext1, p.auth.map (·.keyId))) = some (none, some 0x00010010) := by decide
/-- X12: the second field is bad. -/
theorem test_pktDecode_x12 :
    errOf (pktDecode (h0 0x23 [0, 1, 0, 4, 0, 0, 0, 0, 0, 2, 0, 4, 0, 0])) = some .malformedExtension := by decide
/-- X19: no third field is tried. -/
theorem test_pktDecode_x19 :
    errOf (pktDecode (h0 0x23 [0, 1, 0, 4, 1, 2, 3, 4, 0, 2, 0, 4, 5, 6, 7, 8, 9, 9, 9, 9, 9, 9])) = some (.trailingGarbage 6) := by
  decide
/-- H28v, H29v. -/
theorem test_q16_smallest : q16Value 0x80000000 = -32768 := by
  have h : (0x80000000 : Word).toInt = -2147483648 := by decide
  rw [q16Value, h]; norm_num
theorem test_q16_minus_one_ulp : q16Value 0xFFFFFFFF = -1 / 65536 := by
  have h : (0xFFFFFFFF : Word).toInt = -1 := by decide
  rw [q16Value, h]; norm_num
/-- V8 and V9. -/
theorem test_validate_v8 :
    (modeCheck .reservedPrivate, advisories 0 200) = (.rejectedUnsupportedMode .reservedPrivate, [.versionMismatch, .stratum]) := by
  decide
theorem test_validate_v4 : (modeCheck .client, advisories 4 16) = (.accepted, []) := by decide
/-- R43: 44 register numbers; DIGEST's words. -/
theorem test_digest_word : digestWord trailerP2.digest 3 = 0xACADAEAF := by decide
theorem test_host_write_busy : refusalOf (hostMove (.writeLen 48) (parsing .scan 48 0 0 [] 48)) = some .hostWriteWhileBusy := by decide
theorem test_host_read_novalue : (hostReadReg State.reset .mode).toOption = none := by decide
theorem test_host_read_status_busy : (hostReadReg (parsing .scan 48 0 0 [] 48) .status).toOption = some 0b01 := by decide

/-! ## Witnesses: for each statement with hypotheses, an input that meets them, at the boundaries of its clauses -/

/-- A machine with `LEN` bytes of a listing, not BUSY, with the given command in `CMD`. -/
def started (c : BitVec 2) (len : BitVec 8) : State := { idle 0 [0x23] len with cmd := c }

/-- H0 at the entry to `FIN.CHK`: the state of S2 before its last step. -/
def finState : State :=
  { parsing .fin 48 0 0 [0x23] 48 with
    pkt := { PacketRegs.novalue with
      leap := some 0, version := some 4, mode := some 3, stratum := some 0, poll := some 0, precision := some 0
      rootDelay := some 0, rootDisp := some 0, refId := some 0, refTsSec := some 0, refTsFrac := some 0
      orgTsSec := some 0, orgTsFrac := some 0, rcvTsSec := some 0, rcvTsFrac := some 0, xmtTsSec := some 0
      xmtTsFrac := some 0 } }

/-- The state after `TS.DEC` of T1. -/
def tsOkState : State :=
  { idle 0 [] 8 with
    status := .ok, ext1Valid := none, ext2Valid := none, authValid := none, tsdSec := some 0, tsdFrac := some 0 }

theorem finState_inv : Inv finState := by
  refine ⟨by decide, by decide, ⟨rfl, rfl, rfl, rfl⟩, rfl, rfl, rfl, rfl, 48, 0, 0, false, false, false, ?_⟩
  exact ⟨by decide, rfl, by decide, rfl, ⟨rfl, rfl, rfl, by decide, ⟨rfl, rfl, rfl⟩, ⟨rfl, rfl, rfl⟩, rfl, rfl⟩,
    ⟨rfl, rfl, rfl, rfl, rfl, rfl, rfl, rfl, rfl, rfl, rfl, rfl, rfl, rfl, rfl, rfl, rfl⟩, fun _ => by decide, rfl, .inl rfl,
    fun _ => ⟨rfl, rfl⟩⟩

theorem tsOkState_inv : Inv tsOkState :=
  ⟨by decide, ⟨rfl, rfl, rfl⟩, ⟨rfl, rfl, rfl, rfl⟩, .inr (.inl ⟨rfl, rfl, rfl, rfl, rfl, rfl, rfl, rfl⟩)⟩

theorem witness_StepRunsTheDecodedInstruction :
    (started 1 48).status ≠ .busy ∧ decode (.cmd (started 1 48).cmd) = .ok .pktDec ∧
    finState.status = .busy ∧ decode (.phase finState.pc.phase) = .ok .finChk ∧
    ({ tsOkState with status := .busy } : State).pc.phase = .idle := by
  refine ⟨by decide, rfl, by decide, rfl, by decide⟩

theorem witness_BigEndianBitPlacement :
    0 < 8 ∧ 0 < 1 ∧ 7 < 8 ∧ 3 < 4 ∧ (beNat (bufBytes [(0, 0x80)] 0 4)).testBit (8 * 3 + 7) = true := by decide

/-- `addr + n` at `LEN`, at 128, and one past each. -/
theorem witness_MemReadIsBigEndianSum :
    0 + 48 ≤ (idle 0 [] 48).len.toNat ∧ 120 + 8 ≤ (idle 0 [] 128).len.toNat ∧ 120 + 8 ≤ 128 := by decide
theorem witness_MemReadStopsOutsideTheDatagram :
    (idle 0 [] 48).len.toNat < 48 + 1 ∧ 121 + 8 ≤ (idle 0 [] 255).len.toNat ∧ 128 < 121 + 8 ∧
    faultOf ((memRead (idle 0 [] 48) 47 1).finish (idle 0 [] 48) fun _ => idle 0 [] 48) = none := by decide
theorem witness_MemWriteStoresBigEndianBytes : 0 < 4 ∧ 3 < 4 ∧ 3 < 4 + 0 ∧ 4 + 4 ≤ 8 ∧
    outRead (memWrite [] 4 4 0x9ABCDEF0) 4 = some 0x9A ∧ outRead (memWrite [] 4 4 0x9ABCDEF0) 3 = none := by decide
theorem witness_EncodedDatagramsDecodeBack : (dgram [extP2] (some trailerP2)).wellFormed = true ∧
    (dgram [ext4, ext4] none).wellFormed = true ∧ (dgram [] none).wellFormed = true := by decide
theorem witness_ChkHdr12TestsTwelveBytes : (idle 0 [] 11).len.toNat < 12 ∧ 12 ≤ (idle 0 [] 12).len.toNat := by decide
theorem witness_UnpkB0SplitsByteZero : 1 ≤ (idle 0 [0x23] 1).len.toNat := by decide
theorem witness_ByteLoadsStoreTheByte :
    finState.pkt.precision = some 0 ∧ finState.packet.map (·.precision) = some 0 ∧
    2 ≤ (idle 0 [] 2).len.toNat ∧ 3 ≤ (idle 0 [] 3).len.toNat ∧ 4 ≤ (idle 0 [] 4).len.toNat := by decide
theorem witness_FixedPointLoadsStoreTheRawWord : 8 ≤ (idle 0 [] 8).len.toNat ∧ 12 ≤ (idle 0 [] 12).len.toNat := by decide
theorem witness_LdRefidChecksThenStores : (idle 0 [] 15).len.toNat < 16 ∧ 16 ≤ (idle 0 [] 16).len.toNat := by decide
theorem witness_TimestampStepsDecodeAtPos :
    (parsing .tsref 16 0 0 [] 23).pc.pos = some 16 ∧ (parsing .tsref 16 0 0 [] 23).len.toNat < 16 + 8 ∧
    (parsing .tsxmt 40 0 0 [] 48).pc.pos = some 40 ∧ 40 + 8 ≤ (parsing .tsxmt 40 0 0 [] 48).len.toNat ∧ 40 + 8 ≤ 128 := by decide
theorem witness_ExtScanDispatches :
    (parsing .scan 128 1 0 [] 128).pc.pos = some 128 ∧ (parsing .scan 128 1 0 [] 128).pc.extcnt = some 1 ∧
    (128#8).toNat ≤ (parsing .scan 128 1 0 [] 128).len.toNat := by decide
/-- X7 (`L = 3`), X8 (`L = rem - 3`), X6 (`L = 4 = rem - 4`). -/
theorem witness_ExtHdrChecksTheLength :
    (parsing .exthdr 48 0 48 [0, 0xAA, 0, 4] 56).pc.pos = some 48 ∧ 48 + 4 ≤ (56#8).toNat ∧ 48 + 4 ≤ 128 ∧
    (bufRead (idle 48 [0, 0xAA, 0, 4] 56).buf 50 ++ bufRead (idle 48 [0, 0xAA, 0, 4] 56).buf 51 : Half) = 4 ∧
    4 ≤ (4#16).toNat ∧ 48 + 4 + (4#16).toNat ≤ (56#8).toNat ∧ (3#16).toNat < 4 ∧ (56#8).toNat < 48 + 4 + (5#16).toNat := by decide
theorem witness_ExtValCommitsTheDescriptor :
    let s : State := { parsing .extval 48 0 48 [] 128 with xtType := some 1, xtLen := some 76 }
    let t : State := { parsing .extval 57 1 48 [] 65 with xtType := some 2, xtLen := some 4 }
    s.pc.pos = some 48 ∧ s.xtLen = some 76 ∧ 48 + 4 + (76#16).toNat ≤ 128 ∧ s.pc.extcnt = some 0 ∧
    t.pc.pos = some 57 ∧ t.xtLen = some 4 ∧ 57 + 4 + (4#16).toNat ≤ 128 ∧ t.pc.extcnt = some 1 := by decide
theorem witness_AuthLdTakesTheTrailer :
    (parsing .auth 108 1 0 [] 128).pc.pos = some 108 ∧ 108 + 20 ≤ (parsing .auth 108 1 0 [] 128).len.toNat ∧ 108 + 20 ≤ 128 := by
  decide
theorem witness_FinChkCompletesOrRaises :
    (parsing .fin 48 0 0 [] 48).pc.pos = some 48 ∧ (48#8).toNat = (parsing .fin 48 0 0 [] 48).len.toNat ∧
    (48#8).toNat < (parsing .fin 48 0 0 [] 49).len.toNat := by decide
theorem witness_NopHasNoEffect : State.reset.cmd = 0b00 ∧ finState.cmd = 0b00 := by decide
theorem witness_StartWhileBusyIsIgnored : finState.status = .busy ∧ Instr.tsDec ∈ [Instr.nop, .pktDec, .tsDec, .tsEnc] := by decide
theorem witness_StartWithLenOverBufSizeIsRefused : (idle 0 [] 129).status ≠ .busy ∧ 128 < (idle 0 [] 129).len.toNat := by decide
theorem witness_PktDecStartWipesAndBegins : (idle 0 [] 128).status ≠ .busy ∧ (idle 0 [] 128).len.toNat ≤ 128 := by decide
/-- T15 and T16: `OFF = 120` and `OFF = 121` with `LEN = 128`. -/
theorem witness_TsDecReadsThePairAtOff :
    let s : State := { idle 0 [] 128 with off := 120 }
    let t : State := { idle 0 [] 128 with off := 121 }
    s.status ≠ .busy ∧ s.len.toNat ≤ 128 ∧ s.off.toNat + 8 ≤ s.len.toNat ∧
    t.status ≠ .busy ∧ t.len.toNat ≤ 128 ∧ t.len.toNat < t.off.toNat + 8 := by decide
theorem witness_TsEncWritesTheEightBytes : (idle 0 [] 0).status ≠ .busy ∧ (idle 0 [] 0).len.toNat ≤ 128 := by decide
/-- Two machines with the same host side, one of them BUSY with results about to be wiped. -/
theorem witness_ErrorLeavesNothingBehind :
    let s := idle 0 [0x23] 48
    let u := parsing .fin 48 0 0 [0x23] 48
    s.status ≠ .busy ∧ s.len.toNat ≤ 128 ∧ u.buf = s.buf ∧ u.len = s.len ∧ u.cmd = s.cmd ∧ u.off = s.off ∧
    u.tsInSec = s.tsInSec ∧ u.tsInFrac = s.tsInFrac := by decide

/-- Next states for the frames: a step that completes, a START taken, a START ignored. -/
theorem witness_frames :
    (nextOf (exec .finChk finState)).isSome = true ∧ (nextOf (exec .pktDec (idle 0 [] 48))).isSome = true ∧
    (nextOf (exec .tsEnc finState)).isSome = true ∧ Instr.finChk ∉ [Instr.pktDec, .tsDec, .tsEnc] := by decide
theorem witness_EngineNeverWritesTheHostSide : ∃ t, exec .ldPoll (parsing .poll 2 0 0 [0x23] 48) = .next t := ⟨_, rfl⟩
theorem witness_OutIsWrittenByTsEncOnly :
    (∃ t, exec .finChk finState = .next t) ∧ Instr.finChk ∉ [Instr.pktDec, .tsDec, .tsEnc] ∧
    (∃ t, exec .pktDec (idle 0 [] 48) = .next t) ∧ (idle 0 [] 48).status ≠ .busy ∧
    (∃ t, exec .tsEnc finState = .next t) ∧ finState.status = .busy :=
  ⟨⟨_, rfl⟩, by decide, ⟨_, rfl⟩, by decide, ⟨_, rfl⟩, by decide⟩
theorem witness_EachStepWritesItsOwnRegisters :
    Instr.ldPoll ∉ [Instr.pktDec, .tsDec, .tsEnc] ∧
    field (exec .ldPoll (parsing .poll 2 0 0 [] 48)) (fun t => t.pkt.poll) = some (some 0) := by decide
theorem witness_FlagsAreSetByTheirStepOnly :
    field (exec .extVal { parsing .extval 48 0 48 [] 65 with xtType := some 1, xtLen := some 5 }) (fun t => t.ext1Valid)
      = some (some true) ∧
    field (exec .authLd (parsing .auth 48 0 0 [] 68)) (fun t => t.authValid) = some (some true) ∧
    field (exec .ldPoll (parsing .poll 2 0 0 [] 48)) (fun t => t.status) = some .busy ∧
    Instr.ldPoll ∉ [Instr.pktDec, .extVal, .authLd] := by decide

theorem witness_StepKeepsInvariant : Inv finState ∧ ∃ t, step finState = .next t := ⟨finState_inv, _, rfl⟩
theorem witness_StepNeverStopsInsideInvariant : Inv finState ∧ StartLegal finState ∧
    Inv { tsOkState with cmd := 1 } ∧ StartLegal { tsOkState with cmd := 1 } :=
  ⟨finState_inv, fun h => absurd rfl h,
    ⟨by decide, ⟨rfl, rfl, rfl⟩, ⟨rfl, rfl, rfl, rfl⟩, .inr (.inl ⟨rfl, rfl, rfl, rfl, rfl, rfl, rfl, rfl⟩)⟩, fun _ _ => by decide⟩
theorem witness_HostMovesKeepInvariant : Inv tsOkState ∧ ∃ t, hostMove (.writeLen 129) tsOkState = .next t :=
  ⟨tsOkState_inv, _, rfl⟩
theorem witness_SuccessfulEndCoversEveryByte :
    Inv finState ∧ finState.status = .busy ∧ finState.pc.phase = .fin ∧ ∃ t, exec .finChk finState = .next t ∧ t.status = .ok :=
  ⟨finState_inv, by decide, by decide, _, rfl, by decide⟩
theorem witness_PktDecComputesPktDecode :
    (started 1 128).cmd = 0b01 ∧ (started 1 128).status ≠ .busy ∧
    (started 1 128).len.toNat ≤ 128 := by decide
theorem witness_PktDecRunsFourteenToTwentyOneSteps :
    (started 1 48).cmd = 0b01 ∧ (started 1 48).status ≠ .busy ∧ (started 1 48).len.toNat ≤ 128 := by decide
theorem witness_EveryAcceptedCommandEnds :
    (started 3 128).cmd ≠ 0b00 ∧ (started 3 128).status ≠ .busy ∧ (started 3 128).len.toNat ≤ 128 := by
  decide
/-- P5, step B: the second machine holds stale bytes past `LEN` and an earlier result. -/
theorem witness_OutcomeDependsOnOperandsOnly :
    let s1 : State := { idle 0 [0x23] 30 with cmd := 1 }
    let s2 : State := { idle 0 [0x23] 30 with
      cmd := 1, status := .err, errKind := .malformedExtension, buf := bufLoad (idle 0 [0x23] 30).buf 40 [0xE8, 0xA1] }
    SameOperands s1 s2 ∧ s1.cmd ≠ 0b00 ∧ s1.status ≠ .busy ∧ s2.status ≠ .busy ∧
    s1.len.toNat ≤ 128 ∧ s1.buf ≠ s2.buf := by
  refine ⟨⟨rfl, rfl, rfl, rfl, rfl, by decide⟩, by decide, by decide, by decide, by decide, by decide⟩
theorem witness_ShortDatagramIsTruncated :
    (started 1 47).cmd = 0b01 ∧ (started 1 47).status ≠ .busy ∧ (started 1 47).len.toNat < 48 := by
  decide

/-- `T, L1, T1, L2, T2` of R190 for a datagram. -/
def tailNumbers (buf : List Byte) : List Nat :=
  let t := buf.length - 48
  let l1 := (be16 buf 50).toNat
  let l2 := (be16 buf (52 + l1 + 2)).toNat
  [t, l1, t - 4 - l1, l2, t - 4 - l1 - 4 - l2]
/-- A four-byte field and a second field head, then `n` bytes. -/
def twoFields (n : Nat) : List Byte := [0, 1, 0, 4, 1, 2, 3, 4, 0, 2, 0, 4, 5, 6, 7, 8] ++ List.replicate n 9

/-- One input for each clause: `T` of 0, 20, 1, 3, a bad first length (X7), then `T1` of 0 (X6), 20 (X17), 3 (X11), a bad
second length (X13), then `T2` of 0, 20 (X23), 6 (X19). -/
theorem witness_TailDecidesTheOutcome :
    [h0 0x23 [], h0 0x23 (List.replicate 20 0), h0 0x23 [0], h0 0x23 [0, 1, 0], h0 0x23 [0, 0xAA, 0, 3, 1, 2, 3, 4],
     h0 0x23 [0, 1, 0, 4, 1, 2, 3, 4], h0 0x23 ([0, 1, 0, 4, 1, 2, 3, 4] ++ List.replicate 20 0),
     h0 0x23 ([0, 1, 0, 4, 1, 2, 3, 4] ++ [0, 0, 0]), h0 0x23 [0, 1, 0, 4, 0, 0, 0, 0, 0, 2, 0, 3, 0, 0, 0, 0],
     h0 0x23 (twoFields 0), h0 0x23 (twoFields 20), h0 0x23 (twoFields 6)].map tailNumbers =
    [[0, 0, 0, 0, 0], [20, 0, 16, 0, 12], [1, 0, 0, 0, 0], [3, 0, 0, 0, 0], [8, 3, 1, 0, 0], [8, 4, 0, 0, 0],
     [28, 4, 20, 0, 16], [11, 4, 3, 0, 0], [16, 4, 8, 3, 1], [16, 4, 8, 4, 0], [36, 4, 28, 4, 20], [22, 4, 14, 4, 6]] := by decide
/-- The fields and the trailer that the statement names exist: X23's shape. -/
theorem witness_TailDecidesTheOutcome_values :
    let buf := h0 0x23 (twoFields 20)
    let a : AuthTrailer := ⟨0x09090909, Vector.replicate 16 9⟩
    48 ≤ buf.length ∧ (⟨1, 4, [1, 2, 3, 4]⟩ : ExtField) = ⟨be16 buf 48, be16 buf 50, slice buf 52 4⟩ ∧
    (⟨2, 4, [5, 6, 7, 8]⟩ : ExtField) = ⟨be16 buf 56, be16 buf 58, slice buf 60 4⟩ ∧
    a.keyId = be32 buf (buf.length - 20) ∧ ∀ (i : Nat) (h : i < 16), a.digest[i] = byteAt buf (buf.length - 16 + i) := by
  refine ⟨by decide, by decide, by decide, by decide, by decide⟩
theorem witness_SubmittedDatagramIsDecoded :
    (dgram [extP2] (some trailerP2)).wellFormed = true ∧ Memory.bufWf (idle 40 [0xE8, 0xA1, 0xB2, 0xC4] 48).buf = true ∧
    (idle 40 [0xE8, 0xA1, 0xB2, 0xC4] 48).status ≠ .busy := by decide
/-- P6: the bytes of `OUT` copied to offset 33. -/
theorem witness_TimestampDecodeOfEncode :
    let s : State := { idle 0 [0x23] 48 with tsInSec := 0xE8A1B2C5, tsInFrac := 0xC0000000 }
    s.status ≠ .busy ∧ s.len.toNat ≤ 128 ∧ Memory.bufWf s.buf = true ∧ (48#8).toNat ≤ 128 ∧ (33#8).toNat + 8 ≤ (48#8).toNat ∧
    field (exec .tsEnc s) (fun t => (List.range 8).map (outRead t.out))
      = some [some 0xE8, some 0xA1, some 0xB2, some 0xC5, some 0xC0, some 0, some 0, some 0] := by decide
theorem witness_TimestampEncodeOfDecode : 120 + 8 ≤ (idle 0 [] 128).len.toNat ∧ (idle 0 [] 128).len.toNat ≤ 128 := by decide
theorem witness_Q16EncodeRoundsDown : q16Encode (-1 / 131072) = some 0xFFFFFFFF ∧ q16Encode 32768 = none := by
  have h : (-1 / 131072 * 65536 : Rat).floor = -1 := by norm_num [Rat.floor_def]
  constructor
  · rw [q16Encode, if_pos (by norm_num), h]; decide
  · rw [q16Encode, if_neg (by norm_num)]
theorem witness_HostWritesOnlyWhenNotBusy :
    finState.status = .busy ∧ tsOkState.status ≠ .busy ∧ Memory.bufWf tsOkState.buf = true := by decide
theorem witness_HostReadsAreGuardedAndPure :
    finState.status = .busy ∧ Reg.mode ≠ .status ∧ tsOkState.status ≠ .busy ∧ Reg.value tsOkState .mode = none ∧
    Reg.value tsOkState .tsdSec = some 0 ∧ outRead tsOkState.out (7#3).toNat = none ∧
    outRead ({ tsOkState with out := [(7, 0xFF)] } : State).out (7#3).toNat = some 0xFF := by decide
theorem witness_ValidatorChecksModeVersionStratum :
    (dgram [] none).packet.mode = .client ∧ ({ dgram [] none with mode := 4 } : Datagram).packet.mode ≠ .client := by decide
theorem witness_ReceiveLoopReportsEachDatagramAlone :
    Memory.bufWf tsOkState.buf = true ∧ tsOkState.status ≠ .busy := by decide

end Sys2Proof.Tests
end

section
/-! PROOFS. The host's side of the invariant: what a host write, a host read, a START and a reset do to it (spec 00_scope
R13a, 10_state R45, 43_sequencer_commands R210, 70_reset_and_hazards R280); and that a step runs the row that is decoded. -/

namespace Sys2Proof.Machine

/-! ## Decoding and selection -/

theorem decodeCmd_cases (c : BitVec 2) :
    decodeCmd c = .nop ∨ decodeCmd c = .pktDec ∨ decodeCmd c = .tsDec ∨ decodeCmd c = .tsEnc := by
  unfold decodeCmd
  split <;> simp

theorem decodeCmd_wellFormed (c : BitVec 2) : (decodeCmd c).wellFormed = true := by
  rcases decodeCmd_cases c with h | h | h | h <;> rw [h] <;> rfl

theorem decodePhase_wellFormed {p : Phase} {i : Instr} (h : decodePhase p = .ok i) : i.wellFormed = true := by
  cases p <;> cases h <;> rfl

/-- A BUSY machine in `P_IDLE` has no step to run (R213). -/
theorem step_of_busy_idle {s : State} (h : s.status = .busy) (hp : s.pc.phase = .idle) : step s = .next s := by
  simp [step, State.selector, runSelected, decode, decodePhase, h, hp, Except.toOption]

/-- Settles O1: a step of a machine that is not BUSY and the host's START are both the START event; a BUSY step is the
phase's. -/
theorem stepRunsTheDecodedInstruction : Obligations.StepRunsTheDecodedInstruction := by
  intro s
  refine ⟨fun i hs hd => ?_, fun i hs hd => ⟨decodePhase_wellFormed hd, step_of_busy hs hd⟩, step_of_busy_idle⟩
  obtain rfl : decodeCmd s.cmd = i := Except.ok.inj hd
  exact ⟨decodeCmd_wellFormed s.cmd, (step_of_not_busy hs).trans (startEvent_eq s), startEvent_eq s⟩

/-! ## The memories -/

theorem wf_iff (s : State) : Memory.wf s = true ↔ Memory.bufWf s.buf = true ∧ Memory.outWf s.out = true := by
  simp [Memory.wf]

theorem Inv.bufWf {s : State} (hi : Inv s) : Memory.bufWf s.buf = true := ((wf_iff s).mp hi.1).1

theorem Inv.outWf {s : State} (hi : Inv s) : Memory.outWf s.out = true := ((wf_iff s).mp hi.1).2

@[simp] theorem bufWf_nil : Memory.bufWf [] = true := rfl
@[simp] theorem outWf_nil : Memory.outWf [] = true := rfl

/-- What `MemWrite` puts at its `k`-th address (R70). -/
theorem outRead_memWrite_inside (m : Memory) (v : Nat) {addr n k : Nat} (hk : k < n) :
    outRead (memWrite m addr n v) (addr + k) = some (beByte n v k) :=
  (foldl_insert_lookup (fun k => (addr + k, beByte n v k)) (List.range n) m
    (fun _ _ _ _ h => Nat.add_left_cancel h) (addr + k)).1 k (List.mem_range.mpr hk) rfl

/-- `MemWrite` leaves every other address as it was (R70). -/
theorem outRead_memWrite_outside (m : Memory) (v : Nat) {addr n y : Nat} (hy : y < addr ∨ addr + n ≤ y) :
    outRead (memWrite m addr n v) y = outRead m y := by
  refine (foldl_insert_lookup (fun k => (addr + k, beByte n v k)) (List.range n) m
    (fun _ _ _ _ h => Nat.add_left_cancel h) y).2 fun k hk => ?_
  have : k < n := List.mem_range.mp hk
  show addr + k ≠ y
  omega

/-- The two `MemWrite`s of `TS.ENC` leave no byte of `OUT` without a value (R133). -/
theorem outRead_tsEnc_isSome (m : Memory) (v w : Nat) {i : Nat} (hi : i < 8) :
    (outRead (memWrite (memWrite m 0 4 v) 4 4 w) i).isSome = true := by
  by_cases h : i < 4
  · rw [outRead_memWrite_outside _ _ (.inl h), ← Nat.zero_add i, outRead_memWrite_inside _ _ h]
    rfl
  · obtain ⟨k, rfl⟩ := Nat.exists_eq_add_of_le (Nat.le_of_not_lt h)
    rw [outRead_memWrite_inside _ _ (by omega)]
    rfl

/-! ## The invariant, status by status -/

theorem statusHolds_of_busy {s : State} (h : s.status = .busy) : StatusHolds s ↔ BusyHolds s := by
  simp [StatusHolds, h]

theorem statusHolds_of_idle {s : State} (h : s.status = .idle) : StatusHolds s ↔ QuietHolds s ∧ IdleHolds s := by
  simp [StatusHolds, h]

theorem statusHolds_of_ok {s : State} (h : s.status = .ok) :
    StatusHolds s ↔ QuietHolds s ∧ NoError s ∧ (PktOkHolds s ∨ TsDecOkHolds s ∨ TsEncOkHolds s) := by
  simp [StatusHolds, h]

theorem statusHolds_of_err {s : State} (h : s.status = .err) : StatusHolds s ↔ QuietHolds s ∧ ErrHolds s := by
  simp [StatusHolds, h]

/-- The sections are a matter of the packet registers and the flags alone. -/
theorem SectionsHold.congr {s t : State} {e1 e2 a : Bool} {l1 l2 : Nat} (h : SectionsHold s e1 e2 a l1 l2)
    (hpkt : t.pkt = s.pkt) (h1 : t.ext1Valid = s.ext1Valid) (h2 : t.ext2Valid = s.ext2Valid)
    (ha : t.authValid = s.authValid) : SectionsHold t e1 e2 a l1 l2 where
  ext1Valid := h1.trans h.ext1Valid
  ext2Valid := h2.trans h.ext2Valid
  authValid := ha.trans h.authValid
  order := h.order
  ext1 := hpkt ▸ h.ext1
  ext2 := hpkt ▸ h.ext2
  keyId := hpkt ▸ h.keyId
  digest := hpkt ▸ h.digest

/-- No section is committed where the flags are 0 and the packet registers are `novalue` (R210). -/
theorem sectionsHold_none {s : State} (hpkt : s.pkt = .novalue) (h1 : s.ext1Valid = some false)
    (h2 : s.ext2Valid = some false) (ha : s.authValid = some false) : SectionsHold s false false false 0 0 where
  ext1Valid := h1
  ext2Valid := h2
  authValid := ha
  order := fun h => h
  ext1 := by rw [hpkt]; exact ⟨rfl, rfl, rfl⟩
  ext2 := by rw [hpkt]; exact ⟨rfl, rfl, rfl⟩
  keyId := by rw [hpkt]; rfl
  digest := by rw [hpkt]; rfl

theorem headerFilled_novalue : HeaderFilled .novalue 0 := by
  constructor <;> rfl

/-! ## The error exit -/

/-- The operands of an error are in the ranges of R242 and R244, and `need` fits `ERR_NEED`. -/
def DecodeError.InRange : DecodeError → Prop
  | .truncated need have_ => have_ < need ∧ need < 65536
  | .malformedExtension => True
  | .trailingGarbage n => 1 ≤ n ∧ n ≤ 64

theorem errOperandsHold_raiseError {e : DecodeError} (he : e.InRange) (s : State) : ErrOperandsHold (raiseError e s) := by
  cases e with
  | truncated need have_ =>
    obtain ⟨hlt, hneed⟩ := he
    refine ⟨_, _, rfl, rfl, rfl, ?_⟩
    rw [BitVec.toNat_ofNat, BitVec.toNat_ofNat]
    omega
  | malformedExtension => exact ⟨rfl, rfl, rfl⟩
  | trailingGarbage n =>
    obtain ⟨hpos, hle⟩ := he
    refine ⟨_, rfl, rfl, rfl, ?_⟩
    rw [BitVec.toNat_ofNat]
    omega

/-- The error exit ends in a state of the invariant (R245, R40 row 6). -/
theorem inv_raiseError {e : DecodeError} (he : e.InRange) {s : State} (hbuf : Memory.bufWf s.buf = true)
    (hout : s.out = []) : Inv (raiseError e s) := by
  refine ⟨(wf_iff _).mpr ⟨hbuf, by simp [hout]⟩, (statusHolds_of_err rfl).mpr ⟨⟨rfl, rfl, rfl⟩, ?_⟩⟩
  exact ⟨errOperandsHold_raiseError he s, rfl, rfl, rfl, hout, rfl, rfl, rfl, rfl⟩

/-! ## START -/

/-- After the START of `PKT.DEC` the parse invariants hold at position 0 with no section (R210, R42). -/
theorem parseInv_pktDecStart {s : State} (hlen : s.len.toNat ≤ 128) :
    ParseInv ((startAction s).setPc .chk 0 0) 0 0 0 false false false where
  len_le := hlen
  pos := rfl
  pos_le := Nat.zero_le _
  extcnt := rfl
  sections := sectionsHold_none rfl rfl rfl rfl
  header := headerFilled_novalue
  len_ge := fun h => absurd rfl h
  place := rfl
  entry := ⟨rfl, rfl⟩
  temps := fun _ => ⟨rfl, rfl⟩

theorem inv_pktDecStart {s : State} (hbuf : Memory.bufWf s.buf = true) (hlen : s.len.toNat ≤ 128) :
    Inv ((startAction s).setPc .chk 0 0) :=
  ⟨(wf_iff _).mpr ⟨hbuf, rfl⟩, (statusHolds_of_busy rfl).mpr
    ⟨Phase.noConfusion, ⟨rfl, rfl, rfl, rfl⟩, rfl, rfl, rfl, rfl, 0, 0, 0, false, false, false,
      parseInv_pktDecStart hlen⟩⟩

/-- Everything `ts_decode` can raise: the one truncation, where the eight bytes do not fit (R131). -/
theorem tsDecode_eq_raised {s : State} {off : Nat} {e : DecodeError} :
    tsDecode s off = .raised e ↔ s.len.toNat < off + 8 ∧ e = .truncated (off + 8) s.len.toNat := by
  simp only [tsDecode, Eff.bind_eq_raised, Eff.check_eq_raised, readU32_ne_raised, reduceCtorEq, and_false,
    exists_false, or_false, decide_eq_false_iff_not, Nat.not_le]
  exact and_congr_right' eq_comm

/-- `TS.DEC` ends in a state of the invariant, with the pair or with the error (R132, R40 rows 4 and 6). -/
theorem inv_tsDecAction {s t : State} (hbuf : Memory.bufWf s.buf = true)
    (h : tsDecAction (startAction s) = .next t) : Inv t := by
  rcases Eff.finish_eq_next.mp h with ⟨ts, -, rfl⟩ | ⟨e, he, rfl⟩
  · exact ⟨(wf_iff _).mpr ⟨hbuf, rfl⟩, (statusHolds_of_ok rfl).mpr ⟨⟨rfl, rfl, rfl⟩, ⟨rfl, rfl, rfl, rfl⟩,
      .inr (.inl ⟨rfl, rfl, rfl, rfl, rfl, rfl, rfl, rfl⟩)⟩⟩
  · obtain ⟨hshort, rfl⟩ := tsDecode_eq_raised.mp he
    have hoff : (startAction s).off.toNat < 256 := (startAction s).off.isLt
    exact inv_raiseError (e := .truncated _ _) ⟨hshort, by omega⟩ hbuf rfl

/-- `TS.ENC` ends in a state of the invariant: all eight bytes of `OUT` hold a value (R133, R40 row 5). -/
theorem inv_tsEncAction {s t : State} (hbuf : Memory.bufWf s.buf = true)
    (h : tsEncAction (startAction s) = .next t) : Inv t := by
  cases h
  refine ⟨(wf_iff _).mpr ⟨hbuf, memWrite_wf (memWrite_wf outWf_nil (by decide)) (by decide)⟩,
    (statusHolds_of_ok rfl).mpr ⟨⟨rfl, rfl, rfl⟩, ⟨rfl, rfl, rfl, rfl⟩, .inr (.inr ?_)⟩⟩
  exact ⟨rfl, rfl, rfl, fun i hi => outRead_tsEnc_isSome _ _ _ hi, rfl, rfl, rfl, rfl⟩

/-- A START keeps the invariant when the command's own part reaches it from the START action: an ignored START changes
nothing (R216). -/
theorem onStart_keeps_inv {s t : State} {body : State → Outcome} (hi : Inv s)
    (hbody : s.len.toNat ≤ 128 → body (startAction s) = .next t → Inv t) (h : onStart s body = .next t) : Inv t := by
  rcases onStart_eq_next.mp h with ⟨-, rfl⟩ | ⟨-, hlen, hb⟩
  · exact hi
  · exact hbody hlen hb

theorem execPktDec_keeps_inv {s t : State} (hi : Inv s) (h : execPktDec s = .next t) : Inv t := by
  refine onStart_keeps_inv hi (fun hlen hb => ?_) h
  cases hb
  exact inv_pktDecStart hi.bufWf hlen

theorem execTsDec_keeps_inv {s t : State} (hi : Inv s) (h : execTsDec s = .next t) : Inv t :=
  onStart_keeps_inv hi (fun _ => inv_tsDecAction hi.bufWf) h

theorem execTsEnc_keeps_inv {s t : State} (hi : Inv s) (h : execTsEnc s = .next t) : Inv t :=
  onStart_keeps_inv hi (fun _ => inv_tsEncAction hi.bufWf) h

/-- The START event keeps the invariant, whichever command `CMD` selects. -/
theorem startEvent_keeps_inv {s t : State} (hi : Inv s) (h : startEvent s = .next t) : Inv t := by
  rw [startEvent_eq] at h
  rcases decodeCmd_cases s.cmd with hc | hc | hc | hc <;> rw [hc] at h
  · cases h
    exact hi
  · exact execPktDec_keeps_inv hi h
  · exact execTsDec_keeps_inv hi h
  · exact execTsEnc_keeps_inv hi h

/-! ## Host writes, host reads, reset -/

theorem hostWrite_eq_next {s s' t : State} : hostWrite s s' = .next t ↔ s.status ≠ .busy ∧ t = s' := by
  unfold hostWrite
  split
  · simp [*]
  · simp [*, eq_comm (a := t)]

theorem hostReadMove_eq_next {α : Type} {s t : State} {r : Except Refusal α} :
    hostReadMove s r = .next t ↔ (∃ a, r = .ok a) ∧ t = s := by
  cases r <;> simp [hostReadMove, eq_comm]

/-- While no command runs, what R40 says of the results does not speak of the host's registers nor of `BUF`. -/
theorem statusHolds_of_hostSide {s : State} (hs : s.status ≠ .busy) (h : StatusHolds s) (buf : Memory)
    (len : BitVec 8) (cmd : BitVec 2) (off : BitVec 8) (sec frac : Word) :
    StatusHolds { s with buf := buf, len := len, cmd := cmd, off := off, tsInSec := sec, tsInFrac := frac } := by
  cases hst : s.status with
  | busy => exact absurd hst hs
  | idle => exact (statusHolds_of_idle rfl).mpr ((statusHolds_of_idle hst).mp h)
  | err => exact (statusHolds_of_err rfl).mpr ((statusHolds_of_err hst).mp h)
  | ok =>
    obtain ⟨hquiet, hnoError, hok⟩ := (statusHolds_of_ok hst).mp h
    refine (statusHolds_of_ok rfl).mpr ⟨hquiet, hnoError, hok.imp_left ?_⟩
    rintro ⟨hresid, hsec, hfrac, hout, hheader, l1, l2, e1, e2, a, hsections, hsize⟩
    exact ⟨hresid, hsec, hfrac, hout, hheader, l1, l2, e1, e2, a, hsections.congr rfl rfl rfl rfl, hsize⟩

/-- A write of the host's side that keeps `BUF` canonical keeps the invariant (R45, R283). -/
theorem hostWrite_keeps_inv {s t : State} (hi : Inv s) {buf : Memory} (hbuf : Memory.bufWf buf = true)
    {len : BitVec 8} {cmd : BitVec 2} {off : BitVec 8} {sec frac : Word}
    (h : hostWrite s { s with buf := buf, len := len, cmd := cmd, off := off, tsInSec := sec, tsInFrac := frac }
      = .next t) : Inv t := by
  obtain ⟨hs, rfl⟩ := hostWrite_eq_next.mp h
  exact ⟨(wf_iff _).mpr ⟨hbuf, hi.outWf⟩, statusHolds_of_hostSide hs hi.2 ..⟩

theorem hostReadMove_keeps_inv {α : Type} {s t : State} {r : Except Refusal α} (hi : Inv s)
    (h : hostReadMove s r = .next t) : Inv t := by
  obtain ⟨-, rfl⟩ := hostReadMove_eq_next.mp h
  exact hi

/-- The reset event meets the invariant whatever the environment leaves in the unspecified state (R280, R281). -/
theorem inv_applyReset (left : Residue) : Inv (applyReset left) := by
  have hbuf : Memory.bufWf (bufLoad [] 0 (left.bytes.take 128)) = true :=
    bufLoad_wf bufWf_nil (by simp)
  exact ⟨(wf_iff _).mpr ⟨hbuf, rfl⟩, (statusHolds_of_idle rfl).mpr ⟨⟨rfl, rfl, rfl⟩, ⟨rfl, rfl, rfl, rfl⟩,
    rfl, rfl, rfl, rfl, rfl, rfl, rfl, rfl⟩⟩

/-- Settles O37, by the kinds of host move: a write of the host's side, START, a read, reset. -/
theorem hostMovesKeepInvariant : Obligations.HostMovesKeepInvariant := by
  intro m s t hi h
  cases m with
  | writeBuf i b => exact hostWrite_keeps_inv hi (bufWrite_wf hi.bufWf i.isLt b) h
  | writeLen v => exact hostWrite_keeps_inv hi hi.bufWf h
  | writeCmd v => exact hostWrite_keeps_inv hi hi.bufWf h
  | writeOff v => exact hostWrite_keeps_inv hi hi.bufWf h
  | writeTsInSec v => exact hostWrite_keeps_inv hi hi.bufWf h
  | writeTsInFrac v => exact hostWrite_keeps_inv hi hi.bufWf h
  | raiseStart => exact startEvent_keeps_inv hi h
  | readReg r => exact hostReadMove_keeps_inv hi h
  | readBuf i => exact hostReadMove_keeps_inv hi h
  | readOut i => exact hostReadMove_keeps_inv hi h
  | reset left =>
    cases h
    exact inv_applyReset left

end Sys2Proof.Machine
end

section
/-! PROOFS. What each operation and each tail step can do when it answers, for every state: the inversions that the frames
and the invariant of spec 10_state cite. -/

namespace Sys2Proof.Machine

/-! ## Sequences whose parts never raise -/

/-- A step whose body never raises answers its value's state only. -/
theorem Eff.finish_eq_next_of_ne_raised {α : Type} {x : Eff α} {s t : State} {k : α → State}
    (hx : ∀ e, x ≠ .raised e) (h : x.finish s k = .next t) : ∃ a, x = .val a ∧ t = k a := by
  rcases Eff.finish_eq_next.mp h with hval | ⟨e, he, -⟩
  · exact hval
  · exact absurd he (hx e)

/-- A sequence whose first part never raises raises in its rest. -/
theorem Eff.bind_eq_raised_of_ne_raised {α β : Type} {x : Eff α} {k : α → Eff β} {e : DecodeError}
    (hx : ∀ e, x ≠ .raised e) (h : x.bind k = .raised e) : ∃ a, x = .val a ∧ k a = .raised e := by
  rcases Eff.bind_eq_raised.mp h with h | h
  · exact absurd h (hx e)
  · exact h

/-! ## The parse position and the timestamp read -/

theorem readPos_eq_val {s : State} {n : Nat} : readPos s = .val n ↔ ∃ p, s.pc.pos = some p ∧ p.toNat = n := by
  unfold readPos
  cases s.pc.pos <;> simp

theorem readExtcnt_eq_val {s : State} {n : Nat} :
    readExtcnt s = .val n ↔ ∃ c, s.pc.extcnt = some c ∧ c.toNat = n := by
  unfold readExtcnt
  cases s.pc.extcnt <;> simp

theorem readXtType_eq_val {s : State} {t : Half} : readXtType s = .val t ↔ s.xtType = some t := by
  unfold readXtType
  cases s.xtType <;> simp

theorem readXtLen_eq_val {s : State} {l : Half} : readXtLen s = .val l ↔ s.xtLen = some l := by
  unfold readXtLen
  cases s.xtLen <;> simp

theorem newPos_eq_val {n : Nat} {q : BitVec 8} : newPos n = .val q ↔ n ≤ 128 ∧ q = BitVec.ofNat 8 n := by
  unfold newPos
  split
  · simp_all [eq_comm]
  · simp_all

/-- `ts_decode` yields a pair only where the eight bytes were received (R131). -/
theorem tsDecode_eq_val {s : State} {off : Nat} {ts : Timestamp} (h : tsDecode s off = .val ts) :
    off + 8 ≤ s.len.toNat := by
  by_contra hshort
  rw [tsDecode_raised (by omega)] at h
  cases h

/-- A timestamp step yields its pair only where the eight bytes were received, with the position after them. -/
theorem tsAtPos_eq_val {s : State} {r : Timestamp × BitVec 8} (h : tsAtPos s = .val r) :
    ∃ p, s.pc.pos = some p ∧ p.toNat + 8 ≤ s.len.toNat ∧ r.2 = BitVec.ofNat 8 (p.toNat + 8) := by
  obtain ⟨n, hpos, h⟩ := Eff.bind_eq_val.mp h
  obtain ⟨p, hp, rfl⟩ := readPos_eq_val.mp hpos
  obtain ⟨ts, hts, h⟩ := Eff.bind_eq_val.mp h
  obtain ⟨q, hq, h⟩ := Eff.bind_eq_val.mp h
  cases h
  exact ⟨p, hp, tsDecode_eq_val hts, (newPos_eq_val.mp hq).2⟩

/-- A timestamp step raises the one truncation of `ts_decode`, at its position. -/
theorem tsAtPos_eq_raised {s : State} {e : DecodeError} (h : tsAtPos s = .raised e) :
    ∃ p, s.pc.pos = some p ∧ s.len.toNat < p.toNat + 8 ∧ e = .truncated (p.toNat + 8) s.len.toNat := by
  obtain ⟨n, hpos, h⟩ := Eff.bind_eq_raised_of_ne_raised (fun _ => readPos_ne_raised) h
  obtain ⟨p, hp, rfl⟩ := readPos_eq_val.mp hpos
  rcases Eff.bind_eq_raised.mp h with h | ⟨ts, -, h⟩
  · exact ⟨p, hp, tsDecode_eq_raised.mp h⟩
  · obtain ⟨q, -, h⟩ := Eff.bind_eq_raised_of_ne_raised (fun _ => newPos_ne_raised) h
    cases h

/-! ## The tail steps -/

/-- `EXT.SCAN` moves the phase by the remaining bytes and the count (R181). -/
theorem execExtScan_eq_next {s t : State} (h : execExtScan s = .next t) :
    ∃ rem c, remaining s = .val rem ∧ readExtcnt s = .val c ∧ t = s.setPhase (scanTarget rem c) := by
  obtain ⟨ph, hph, rfl⟩ := Eff.finish_eq_next_of_ne_raised
    (by simp [Eff.bind_eq_raised, remaining_ne_raised, readExtcnt_ne_raised]) h
  obtain ⟨rem, hrem, hph⟩ := Eff.bind_eq_val.mp hph
  obtain ⟨c, hc, hph⟩ := Eff.bind_eq_val.mp hph
  cases hph
  exact ⟨rem, c, hrem, hc, rfl⟩

theorem extLengthOk_iff {l rem : Nat} : extLengthOk l rem = true ↔ 4 ≤ l ∧ l ≤ rem - 4 := by
  simp [extLengthOk]

/-- `EXT.HDR` raises MalformedExtension, or keeps two words of which the length passed its check (R182). -/
theorem execExtHdr_eq_next {s t : State} (h : execExtHdr s = .next t) :
    t = raiseError .malformedExtension s ∨
    ∃ rem ty l, remaining s = .val rem ∧ 4 ≤ l.toNat ∧ l.toNat ≤ rem - 4 ∧
      t = State.setPhase { s with xtType := some ty, xtLen := some l } .extval := by
  rcases Eff.finish_eq_next.mp h with ⟨r, hr, rfl⟩ | ⟨e, he, rfl⟩
  · obtain ⟨rem, hrem, hr⟩ := Eff.bind_eq_val.mp hr
    obtain ⟨p, -, hr⟩ := Eff.bind_eq_val.mp hr
    obtain ⟨ty, -, hr⟩ := Eff.bind_eq_val.mp hr
    obtain ⟨l, -, hr⟩ := Eff.bind_eq_val.mp hr
    obtain ⟨u, hu, hr⟩ := Eff.bind_eq_val.mp hr
    obtain ⟨hmin, hmax⟩ := extLengthOk_iff.mp (Eff.check_eq_val.mp hu)
    cases hr
    exact .inr ⟨rem, ty, l, hrem, hmin, hmax, rfl⟩
  · obtain ⟨rem, -, he⟩ := Eff.bind_eq_raised_of_ne_raised (fun _ => remaining_ne_raised) he
    obtain ⟨p, -, he⟩ := Eff.bind_eq_raised_of_ne_raised (fun _ => readPos_ne_raised) he
    obtain ⟨ty, -, he⟩ := Eff.bind_eq_raised_of_ne_raised (fun _ => readU16_ne_raised) he
    obtain ⟨l, -, he⟩ := Eff.bind_eq_raised_of_ne_raised (fun _ => readU16_ne_raised) he
    rcases Eff.bind_eq_raised.mp he with he | ⟨u, -, he⟩
    · obtain ⟨-, rfl⟩ := Eff.check_eq_raised.mp he
      exact .inl rfl
    · cases he

/-- `EXT.VAL` commits the descriptor that the count selects, and passes the field (R183). -/
theorem execExtVal_eq_next {s t : State} (h : execExtVal s = .next t) :
    ∃ p c ty l, s.pc.pos = some p ∧ s.pc.extcnt = some c ∧ s.xtType = some ty ∧ s.xtLen = some l ∧
      ((c = 0 ∧ t = State.setPc { commitExt1 s ty l (BitVec.ofNat 8 (p.toNat + 4)) with xtType := none, xtLen := none }
          .scan (BitVec.ofNat 8 (p.toNat + 4 + l.toNat)) 1) ∨
       (c = 1 ∧ t = State.setPc { commitExt2 s ty l (BitVec.ofNat 8 (p.toNat + 4)) with xtType := none, xtLen := none }
          .scan (BitVec.ofNat 8 (p.toNat + 4 + l.toNat)) 2)) := by
  obtain ⟨s', hs', rfl⟩ := Eff.finish_eq_next_of_ne_raised
    (by simp [Eff.bind_eq_raised, readPos_ne_raised, readExtcnt_ne_raised, readXtType_ne_raised, readXtLen_ne_raised,
      newPos_ne_raised, commitExt_ne_raised]) h
  obtain ⟨_, hpos, hs'⟩ := Eff.bind_eq_val.mp hs'
  obtain ⟨p, hp, rfl⟩ := readPos_eq_val.mp hpos
  obtain ⟨_, hcnt, hs'⟩ := Eff.bind_eq_val.mp hs'
  obtain ⟨c, hc, rfl⟩ := readExtcnt_eq_val.mp hcnt
  obtain ⟨ty, hty, hs'⟩ := Eff.bind_eq_val.mp hs'
  obtain ⟨l, hl, hs'⟩ := Eff.bind_eq_val.mp hs'
  obtain ⟨q, hq, hs'⟩ := Eff.bind_eq_val.mp hs'
  obtain ⟨-, rfl⟩ := newPos_eq_val.mp hq
  obtain ⟨u, hu, hs'⟩ := Eff.bind_eq_val.mp hs'
  cases hs'
  refine ⟨p, c, ty, l, hp, hc, readXtType_eq_val.mp hty, readXtLen_eq_val.mp hl, ?_⟩
  rcases commitExt_eq_val.mp hu with ⟨h0, rfl⟩ | ⟨h1, rfl⟩
  · exact .inl ⟨BitVec.eq_of_toNat_eq h0, by rw [h0]; rfl⟩
  · exact .inr ⟨BitVec.eq_of_toNat_eq h1, by rw [h1]; rfl⟩

/-- `AUTH.LD` takes a key identifier and a digest, and passes the twenty bytes (R184). -/
theorem execAuthLd_eq_next {s t : State} (h : execAuthLd s = .next t) :
    ∃ p k d, s.pc.pos = some p ∧
      t = State.setPhasePos (setAuthValid { s with pkt := { s.pkt with keyId := some k, digest := some d } }) .fin
        (BitVec.ofNat 8 (p.toNat + 20)) := by
  obtain ⟨r, hr, rfl⟩ := Eff.finish_eq_next_of_ne_raised
    (by simp [Eff.bind_eq_raised, readPos_ne_raised, readU32_ne_raised, readDigest_ne_raised, newPos_ne_raised]) h
  obtain ⟨_, hpos, hr⟩ := Eff.bind_eq_val.mp hr
  obtain ⟨p, hp, rfl⟩ := readPos_eq_val.mp hpos
  obtain ⟨k, -, hr⟩ := Eff.bind_eq_val.mp hr
  obtain ⟨d, -, hr⟩ := Eff.bind_eq_val.mp hr
  obtain ⟨q, hq, hr⟩ := Eff.bind_eq_val.mp hr
  obtain ⟨-, rfl⟩ := newPos_eq_val.mp hq
  cases hr
  exact ⟨p, k, d, hp, rfl⟩

/-- `FIN.CHK` completes when no byte is left, and raises TrailingGarbage of the bytes left otherwise (R185). -/
theorem execFinChk_eq_next {s t : State} (h : execFinChk s = .next t) :
    ∃ rem, remaining s = .val rem ∧
      ((rem = 0 ∧ t = completeOk { s with resid := some 0 }) ∨
       (rem ≠ 0 ∧ t = raiseError (.trailingGarbage rem) s)) := by
  rcases Eff.finish_eq_next.mp h with ⟨u, hu, rfl⟩ | ⟨e, he, rfl⟩
  · obtain ⟨rem, hrem, hu⟩ := Eff.bind_eq_val.mp hu
    exact ⟨rem, hrem, .inl ⟨of_decide_eq_true (Eff.check_eq_val.mp hu), rfl⟩⟩
  · obtain ⟨rem, hrem, he⟩ := Eff.bind_eq_raised_of_ne_raised (fun _ => remaining_ne_raised) he
    obtain ⟨hne, rfl⟩ := Eff.check_eq_raised.mp he
    exact ⟨rem, hrem, .inr ⟨of_decide_eq_false hne, rfl⟩⟩

end Sys2Proof.Machine
end

section
/-! PROOFS. Every step keeps the invariant of spec 10_state R42 and R40: the header steps by one argument, the tail steps one
by one, then the step through the phase that selects it. -/

namespace Sys2Proof.Machine

/-- `P_IDLE` is the only phase that selects no step (R213). -/
theorem decodePhase_eq_error {p : Phase} {r : DecodeRefusal} (h : decodePhase p = .error r) : p = .idle := by
  cases p <;> cases h
  rfl

/-! ## BUSY states of the invariant -/

section Busy

variable {s : State} (hi : Inv s) (hs : s.status = .busy)
include hi hs

theorem Inv.busyHolds : BusyHolds s := (statusHolds_of_busy hs).mp hi.2

theorem Inv.phase_ne_idle : s.pc.phase ≠ .idle := (hi.busyHolds hs).1

theorem Inv.parseInv : ∃ p l1 l2 e1 e2 a, ParseInv s p l1 l2 e1 e2 a := by
  obtain ⟨-, -, -, -, -, -, hparse⟩ := hi.busyHolds hs
  exact hparse

theorem Inv.out_nil : s.out = [] := by
  obtain ⟨-, -, -, -, -, hout, -⟩ := hi.busyHolds hs
  exact hout

/-- The error exit of a step keeps the invariant. -/
theorem Inv.raiseError {e : DecodeError} (he : e.InRange) : Inv (raiseError e s) :=
  inv_raiseError he hi.bufWf (hi.out_nil hs)

/-- A step that writes packet registers, flags, `pc` and the temporaries only, and keeps the parse invariants, keeps the
invariant. -/
theorem Inv.of_parseInv {pkt : PacketRegs} {f1 f2 fa : Option Bool} {pc : Pc} {xt xl : Option Half}
    {p l1 l2 : Nat} {e1 e2 a : Bool} (hph : pc.phase ≠ .idle)
    (hp : ParseInv { s with pkt := pkt, ext1Valid := f1, ext2Valid := f2, authValid := fa, pc := pc,
                            xtType := xt, xtLen := xl } p l1 l2 e1 e2 a) :
    Inv { s with pkt := pkt, ext1Valid := f1, ext2Valid := f2, authValid := fa, pc := pc, xtType := xt, xtLen := xl } := by
  obtain ⟨-, hnoError, hresid, hsec, hfrac, hout, -⟩ := hi.busyHolds hs
  refine ⟨(wf_iff _).mpr ⟨hi.bufWf, hi.outWf⟩, (statusHolds_of_busy ?_).mpr ?_⟩
  · exact hs
  · exact ⟨hph, hnoError, hresid, hsec, hfrac, hout, p, l1, l2, e1, e2, a, hp⟩

/-- After `CHK.HDR12` at least twelve bytes were received (R151, I2). -/
theorem Inv.twelve_le_len (hph : s.pc.phase ≠ .chk) : 12 ≤ s.len.toNat := by
  obtain ⟨p, l1, l2, e1, e2, a, hp⟩ := hi.parseInv hs
  exact hp.len_ge hph

end Busy

/-! ## The hidden registers under the parse invariants -/

theorem count_le_two (e1 e2 : Bool) : e1.toNat + e2.toNat ≤ 2 := by
  have := e1.toNat_le
  have := e2.toNat_le
  omega

section Parse

variable {s : State} {p l1 l2 : Nat} {e1 e2 a : Bool} (h : ParseInv s p l1 l2 e1 e2 a)
include h

theorem ParseInv.pos_toNat : (BitVec.ofNat 8 p).toNat = p := by
  have := h.pos_le
  have := h.len_le
  rw [BitVec.toNat_ofNat]
  omega

theorem ParseInv.toNat_of_pos_eq {q : BitVec 8} (hq : s.pc.pos = some q) : q.toNat = p := by
  obtain rfl : BitVec.ofNat 8 p = q := Option.some.inj (h.pos.symm.trans hq)
  exact h.pos_toNat

theorem ParseInv.remaining_eq : remaining s = .val (s.len.toNat - p) := by
  rw [remaining_val h.pos (h.pos_toNat.trans_le h.pos_le), h.pos_toNat]

theorem ParseInv.eq_of_remaining {rem : Nat} (hrem : remaining s = .val rem) : rem = s.len.toNat - p :=
  Eff.val.inj (hrem.symm.trans h.remaining_eq)

theorem ParseInv.readExtcnt_eq : readExtcnt s = .val (e1.toNat + e2.toNat) := by
  rw [readExtcnt_val h.extcnt]
  cases e1 <;> cases e2 <;> rfl

end Parse

/-! ## The header steps -/

/-- No register of a section after the header holds a value. -/
def NoSections (p : PacketRegs) : Prop :=
  p.ext1Type = none ∧ p.ext1Len = none ∧ p.ext1Off = none ∧ p.ext2Type = none ∧ p.ext2Len = none ∧ p.ext2Off = none
    ∧ p.keyId = none ∧ p.digest = none

theorem sectionsHold_none_iff {s : State} {l1 l2 : Nat} :
    SectionsHold s false false false l1 l2 ↔
      NoSections s.pkt ∧ s.ext1Valid = some false ∧ s.ext2Valid = some false ∧ s.authValid = some false := by
  constructor
  · intro h
    obtain ⟨ht1, hl1, ho1⟩ := h.ext1
    obtain ⟨ht2, hl2, ho2⟩ := h.ext2
    exact ⟨⟨ht1, hl1, ho1, ht2, hl2, ho2, by simpa using h.keyId, by simpa using h.digest⟩,
      h.ext1Valid, h.ext2Valid, h.authValid⟩
  · rintro ⟨⟨ht1, hl1, ho1, ht2, hl2, ho2, hk, hd⟩, h1, h2, ha⟩
    exact ⟨h1, h2, ha, fun h => h, ⟨ht1, hl1, ho1⟩, ⟨ht2, hl2, ho2⟩, by rw [hk]; rfl, by rw [hd]; rfl⟩

/-- What is known on entry to a header phase: no section is committed. -/
theorem tailEntry_iff_of_headerPos {s : State} {rem c p : Nat} {a : Bool} {ph : Phase} (h : headerPos ph = some p) :
    TailEntry s rem c a ph ↔ a = false ∧ c = 0 := by
  cases ph <;> simp_all [headerPos, TailEntry]

/-- On entry to a header phase no section is committed, and the position is the phase's own (R213). -/
theorem Inv.parseInv_header {s : State} (hi : Inv s) (hs : s.status = .busy) {q : Nat}
    (hq : headerPos s.pc.phase = some q) : ∃ l1 l2, ParseInv s q l1 l2 false false false := by
  obtain ⟨p, l1, l2, e1, e2, a, hp⟩ := hi.parseInv hs
  obtain ⟨rfl, hcount⟩ := (tailEntry_iff_of_headerPos hq).mp hp.entry
  obtain rfl : e1 = false := by cases e1 <;> simp_all
  obtain rfl : e2 = false := by cases e2 <;> simp_all
  obtain rfl : p = q := by rw [hp.place, hq]; rfl
  exact ⟨l1, l2, hp⟩

/-- The phases a header step can lead to, each with its position: a header phase, or `P_SCAN` at 48 (R213). -/
def HeaderTarget (ph : Phase) (p : Nat) : Prop := headerPos ph = some p ∨ (ph = .scan ∧ p = 48)

theorem HeaderTarget.ne_idle {ph : Phase} {p : Nat} (h : HeaderTarget ph p) : ph ≠ .idle := by
  rintro rfl
  simp [HeaderTarget, headerPos] at h

theorem HeaderTarget.place {ph : Phase} {p : Nat} (h : HeaderTarget ph p) (l1 l2 : Nat) :
    p = (headerPos ph).getD (48 + tailBytes false false false l1 l2) := by
  rcases h with h | ⟨rfl, rfl⟩
  · rw [h]; rfl
  · rfl

theorem HeaderTarget.entry {ph : Phase} {p : Nat} (h : HeaderTarget ph p) (s : State) (rem : Nat) :
    TailEntry s rem 0 false ph := by
  rcases h with h | ⟨rfl, -⟩
  · exact (tailEntry_iff_of_headerPos h).mpr ⟨rfl, rfl⟩
  · rfl

section HeaderStep

variable {s t : State} {ph ph' : Phase} {q p : Nat}

/-- A header step that fills its own registers and goes to the next phase keeps the invariant. -/
theorem inv_headerStep (hi : Inv s) (hs : s.status = .busy) (hq : headerPos s.pc.phase = some q)
    (hto : HeaderTarget ph' p) (h12 : 12 ≤ s.len.toNat) (hp : p ≤ s.len.toNat) {pkt : PacketRegs}
    (hsec : NoSections s.pkt → NoSections pkt)
    (hfill : HeaderFilled s.pkt (phaseRank s.pc.phase) → HeaderFilled pkt (phaseRank ph')) :
    Inv (State.setPc { s with pkt := pkt } ph' (BitVec.ofNat 8 p) 0) := by
  obtain ⟨l1, l2, h⟩ := hi.parseInv_header hs hq
  obtain ⟨hnone, hflags⟩ := sectionsHold_none_iff.mp h.sections
  have hx : s.pc.phase ≠ .extval := by
    intro hx
    rw [hx] at hq
    cases hq
  exact hi.of_parseInv hs hto.ne_idle (l1 := l1) (l2 := l2)
    { len_le := h.len_le
      pos := rfl
      pos_le := hp
      extcnt := rfl
      sections := sectionsHold_none_iff.mpr ⟨hsec hnone, hflags⟩
      header := hfill h.header
      len_ge := fun _ => h12
      place := hto.place l1 l2
      entry := hto.entry _ _
      temps := fun _ => h.temps hx }

/-- The header steps that write every component of `pc`: `CHK.HDR12` to `LD.REFID` (R151 to R158). -/
theorem headerLoad_keeps_inv {α : Type} {x : Eff α} {f : α → PacketRegs} (hi : Inv s) (hs : s.status = .busy)
    (hph : s.pc.phase = ph)
    (h : x.finish s (fun b => State.setPc { s with pkt := f b } ph' (BitVec.ofNat 8 p) 0) = .next t)
    (hq : headerPos ph = some q) (hto : HeaderTarget ph' p)
    (hraise : ∀ e, x = .raised e → e.InRange)
    (hlen : ∀ b, x = .val b → 12 ≤ s.len.toNat ∧ p ≤ s.len.toNat)
    (hsec : ∀ b, NoSections s.pkt → NoSections (f b))
    (hfill : ∀ b, HeaderFilled s.pkt (phaseRank ph) → HeaderFilled (f b) (phaseRank ph')) : Inv t := by
  subst hph
  rcases Eff.finish_eq_next.mp h with ⟨b, hb, rfl⟩ | ⟨e, he, rfl⟩
  · obtain ⟨h12, hp⟩ := hlen b hb
    exact inv_headerStep hi hs hq hto h12 hp (hsec b) (hfill b)
  · exact hi.raiseError hs (hraise e he)

/-- The header steps that only read inside the first twelve bytes: `UNPK.B0` to `LD.RDISP` (R152 to R157). -/
theorem headerRead_keeps_inv {α : Type} {x : Eff α} {f : α → PacketRegs} (hi : Inv s) (hs : s.status = .busy)
    (hph : s.pc.phase = ph)
    (h : x.finish s (fun b => State.setPc { s with pkt := f b } ph' (BitVec.ofNat 8 p) 0) = .next t)
    (hx : ∀ e, x ≠ .raised e) (hne : ph ≠ .chk) (hq : headerPos ph = some q) (hto : HeaderTarget ph' p) (hp : p ≤ 12)
    (hsec : ∀ b, NoSections s.pkt → NoSections (f b))
    (hfill : ∀ b, HeaderFilled s.pkt (phaseRank ph) → HeaderFilled (f b) (phaseRank ph')) : Inv t := by
  have h12 := hi.twelve_le_len hs (hph ▸ hne)
  exact headerLoad_keeps_inv hi hs hph h hq hto (fun e he => absurd he (hx e)) (fun _ _ => ⟨h12, hp.trans h12⟩) hsec hfill

/-- The header steps that read a timestamp at `pc.pos`: `TS.REF` to `TS.XMT` (R135 to R138). -/
theorem tsStep_keeps_inv {f : Timestamp × BitVec 8 → PacketRegs} (hi : Inv s) (hs : s.status = .busy) (hph : s.pc.phase = ph)
    (h : (tsAtPos s).finish s (fun r => State.setPhasePos { s with pkt := f r } ph' r.2) = .next t)
    (hne : ph ≠ .chk) (hq : headerPos ph = some q) (hto : HeaderTarget ph' (q + 8))
    (hsec : ∀ r, NoSections s.pkt → NoSections (f r))
    (hfill : ∀ r, HeaderFilled s.pkt (phaseRank ph) → HeaderFilled (f r) (phaseRank ph')) : Inv t := by
  subst hph
  obtain ⟨l1, l2, hparse⟩ := hi.parseInv_header hs hq
  rcases Eff.finish_eq_next.mp h with ⟨r, hval, rfl⟩ | ⟨e, he, rfl⟩
  · obtain ⟨p, hp, hle, hpos⟩ := tsAtPos_eq_val hval
    rw [hparse.toNat_of_pos_eq hp] at hle hpos
    have hpc : State.setPhasePos { s with pkt := f r } ph' r.2 =
        State.setPc { s with pkt := f r } ph' (BitVec.ofNat 8 (q + 8)) 0 := by
      simp [State.setPhasePos, State.setPc, hparse.extcnt, hpos]
    rw [hpc]
    exact inv_headerStep hi hs hq hto (hi.twelve_le_len hs hne) hle (hsec r) (hfill r)
  · obtain ⟨p, -, hshort, rfl⟩ := tsAtPos_eq_raised he
    have := p.isLt
    exact hi.raiseError hs ⟨hshort, by omega⟩

end HeaderStep

section Steps

variable {s t : State} (hi : Inv s) (hs : s.status = .busy)
include hi hs

theorem execChkHdr12_keeps_inv (hph : s.pc.phase = .chk) (h : execChkHdr12 s = .next t) : Inv t := by
  refine headerLoad_keeps_inv (f := fun _ => s.pkt) hi hs hph h rfl (.inl rfl) (fun e he => ?_) (fun _ hb => ?_)
    (fun _ => id) (fun _ hf => ?_)
  · obtain ⟨hlt, rfl⟩ := Eff.check_eq_raised.mp he
    exact ⟨Nat.lt_of_not_le (of_decide_eq_false hlt), by decide⟩
  · exact ⟨of_decide_eq_true (Eff.check_eq_val.mp hb), Nat.zero_le _⟩
  · exact { hf with }

theorem execUnpkB0_keeps_inv (hph : s.pc.phase = .b0) (h : execUnpkB0 s = .next t) : Inv t :=
  headerRead_keeps_inv hi hs hph h (fun _ => readU8_ne_raised) (by decide) rfl (.inl rfl) (by decide) (fun _ => id)
    (fun _ hf => { hf with leap := rfl, version := rfl, mode := rfl })

theorem execLdStratum_keeps_inv (hph : s.pc.phase = .stratum) (h : execLdStratum s = .next t) : Inv t :=
  headerRead_keeps_inv hi hs hph h (fun _ => readU8_ne_raised) (by decide) rfl (.inl rfl) (by decide) (fun _ => id)
    (fun _ hf => { hf with stratum := rfl })

theorem execLdPoll_keeps_inv (hph : s.pc.phase = .poll) (h : execLdPoll s = .next t) : Inv t :=
  headerRead_keeps_inv hi hs hph h (fun _ => readU8_ne_raised) (by decide) rfl (.inl rfl) (by decide) (fun _ => id)
    (fun _ hf => { hf with poll := rfl })

theorem execLdPrec_keeps_inv (hph : s.pc.phase = .prec) (h : execLdPrec s = .next t) : Inv t :=
  headerRead_keeps_inv hi hs hph h (fun _ => readU8_ne_raised) (by decide) rfl (.inl rfl) (by decide) (fun _ => id)
    (fun _ hf => { hf with precision := rfl })

theorem execLdRdelay_keeps_inv (hph : s.pc.phase = .rdelay) (h : execLdRdelay s = .next t) : Inv t :=
  headerRead_keeps_inv hi hs hph h (fun _ => readU32_ne_raised) (by decide) rfl (.inl rfl) (by decide) (fun _ => id)
    (fun _ hf => { hf with rootDelay := rfl })

theorem execLdRdisp_keeps_inv (hph : s.pc.phase = .rdisp) (h : execLdRdisp s = .next t) : Inv t :=
  headerRead_keeps_inv hi hs hph h (fun _ => readU32_ne_raised) (by decide) rfl (.inl rfl) (by decide) (fun _ => id)
    (fun _ hf => { hf with rootDisp := rfl })

theorem execLdRefid_keeps_inv (hph : s.pc.phase = .refid) (h : execLdRefid s = .next t) : Inv t := by
  refine headerLoad_keeps_inv hi hs hph h rfl (.inl rfl) (fun e he => ?_) (fun _ hb => ?_) (fun _ => id)
    (fun _ hf => { hf with refId := rfl })
  · rcases Eff.bind_eq_raised.mp he with he | ⟨_, -, he⟩
    · obtain ⟨hlt, rfl⟩ := Eff.check_eq_raised.mp he
      exact ⟨Nat.lt_of_not_le (of_decide_eq_false hlt), by decide⟩
    · exact absurd he readU32_ne_raised
  · obtain ⟨_, hcheck, -⟩ := Eff.bind_eq_val.mp hb
    have h16 : 16 ≤ s.len.toNat := of_decide_eq_true (Eff.check_eq_val.mp hcheck)
    exact ⟨by omega, h16⟩

theorem execTsRef_keeps_inv (hph : s.pc.phase = .tsref) (h : execTsRef s = .next t) : Inv t :=
  tsStep_keeps_inv hi hs hph h (by decide) rfl (.inl rfl) (fun _ => id)
    (fun _ hf => { hf with refTsSec := rfl, refTsFrac := rfl })

theorem execTsOrg_keeps_inv (hph : s.pc.phase = .tsorg) (h : execTsOrg s = .next t) : Inv t :=
  tsStep_keeps_inv hi hs hph h (by decide) rfl (.inl rfl) (fun _ => id)
    (fun _ hf => { hf with orgTsSec := rfl, orgTsFrac := rfl })

theorem execTsRcv_keeps_inv (hph : s.pc.phase = .tsrcv) (h : execTsRcv s = .next t) : Inv t :=
  tsStep_keeps_inv hi hs hph h (by decide) rfl (.inl rfl) (fun _ => id)
    (fun _ hf => { hf with rcvTsSec := rfl, rcvTsFrac := rfl })

theorem execTsXmt_keeps_inv (hph : s.pc.phase = .tsxmt) (h : execTsXmt s = .next t) : Inv t :=
  tsStep_keeps_inv hi hs hph h (by decide) rfl (.inr ⟨rfl, rfl⟩) (fun _ => id)
    (fun _ hf => { hf with xmtTsSec := rfl, xmtTsFrac := rfl })

end Steps

/-! ## The tail steps -/

/-- The phases after the header: `P_SCAN` to `P_FIN` (R181 to R185). -/
def TailPhase (ph : Phase) : Prop := ph ≠ .idle ∧ headerPos ph = none

theorem TailPhase.of_eq {ph ph' : Phase} (h : ph' = ph) (hidle : ph ≠ .idle) (hpos : headerPos ph = none) :
    TailPhase ph' := h ▸ ⟨hidle, hpos⟩

theorem TailPhase.rank {ph : Phase} (h : TailPhase ph) : phaseRank ph = 12 := by
  obtain ⟨hidle, hpos⟩ := h
  cases ph <;> simp_all [phaseRank, headerPos]

theorem TailPhase.ne_chk {ph : Phase} (h : TailPhase ph) : ph ≠ .chk := by
  rintro rfl
  cases h.2

theorem tailPhase_scanTarget (rem c : Nat) : TailPhase (scanTarget rem c) := by
  unfold scanTarget
  split_ifs <;> exact ⟨by decide, rfl⟩

/-- The dispatch of `EXT.SCAN` leads to a phase whose entry conditions hold (R181). -/
theorem tailEntry_scanTarget (s : State) {rem c : Nat} (hc : c ≤ 2) :
    TailEntry s rem c false (scanTarget rem c) := by
  unfold scanTarget
  split_ifs with h0 h20 h2 h4
  · exact .inl h0
  · exact ⟨rfl, h20⟩
  · exact .inr ⟨rfl, h20, .inr h2⟩
  · exact .inr ⟨rfl, h20, .inl ⟨Nat.le_of_lt_succ h4, Nat.le_of_lt_succ (Nat.lt_of_le_of_ne hc h2)⟩⟩
  · exact ⟨rfl, Nat.le_of_not_lt h4, h20, Nat.le_of_lt_succ (Nat.lt_of_le_of_ne hc h2)⟩

section TailFacts

variable {s : State} {p l1 l2 : Nat} {e1 e2 a : Bool} (h : ParseInv s p l1 l2 e1 e2 a)
include h

theorem ParseInv.place_tail (hph : TailPhase s.pc.phase) : p = 48 + tailBytes e1 e2 a l1 l2 := by
  rw [h.place, hph.2]
  rfl

theorem ParseInv.header_tail (hph : TailPhase s.pc.phase) : HeaderFilled s.pkt 12 := hph.rank ▸ h.header

theorem ParseInv.entry_of_phase {ph : Phase} (hph : s.pc.phase = ph) :
    TailEntry s (s.len.toNat - p) (e1.toNat + e2.toNat) a ph := hph ▸ h.entry

/-- A move between tail phases that commits no section keeps the parse invariants, when the entry conditions hold. -/
theorem ParseInv.moveTail (hph : TailPhase s.pc.phase) {ph : Phase} (hph' : TailPhase ph) {xt xl : Option Half}
    (hentry : TailEntry (State.setPhase { s with xtType := xt, xtLen := xl } ph) (s.len.toNat - p)
      (e1.toNat + e2.toNat) a ph)
    (htemps : ph ≠ .extval → xt = none ∧ xl = none) :
    ParseInv (State.setPhase { s with xtType := xt, xtLen := xl } ph) p l1 l2 e1 e2 a where
  len_le := h.len_le
  pos := h.pos
  pos_le := h.pos_le
  extcnt := h.extcnt
  sections := h.sections.congr rfl rfl rfl rfl
  header := hph'.rank.symm ▸ h.header_tail hph
  len_ge := fun _ => h.len_ge hph.ne_chk
  place := by rw [h.place_tail hph]; simp [hph'.2]
  entry := hentry
  temps := htemps

end TailFacts

/-- At `P_FIN` at most 64 bytes are left over, since two fields take at least 16 bytes (R244). -/
theorem ParseInv.rem_le_of_fin {s : State} {p l1 l2 : Nat} {e1 e2 a : Bool} (h : ParseInv s p l1 l2 e1 e2 a)
    (hph : s.pc.phase = .fin) : s.len.toNat - p ≤ 64 := by
  have htail : TailPhase s.pc.phase := .of_eq hph (by decide) rfl
  rcases h.entry_of_phase hph with h0 | ⟨-, -, ⟨h3, -⟩ | h2⟩
  · omega
  · omega
  · obtain rfl : e1 = true := by cases e1 <;> cases e2 <;> simp_all
    obtain rfl : e2 = true := by cases e2 <;> simp_all
    obtain ⟨-, -, -, hl1⟩ := h.sections.ext1
    obtain ⟨-, -, -, hl2⟩ := h.sections.ext2
    have hp : p = 48 + tailBytes true true a l1 l2 := h.place_tail htail
    have := h.len_le
    simp only [tailBytes, if_true] at hp
    omega

section TailSteps

variable {s t : State} (hi : Inv s) (hs : s.status = .busy)
include hi hs

theorem execExtScan_keeps_inv (hph : s.pc.phase = .scan) (h : execExtScan s = .next t) : Inv t := by
  obtain ⟨p, l1, l2, e1, e2, a, hp⟩ := hi.parseInv hs
  obtain rfl : a = false := hp.entry_of_phase hph
  obtain ⟨rem, c, hrem, hc, rfl⟩ := execExtScan_eq_next h
  obtain rfl := hp.eq_of_remaining hrem
  obtain rfl : c = e1.toNat + e2.toNat := Eff.val.inj (hc.symm.trans hp.readExtcnt_eq)
  have htarget := tailPhase_scanTarget (s.len.toNat - p) (e1.toNat + e2.toNat)
  exact hi.of_parseInv hs htarget.1 (hp.moveTail (.of_eq hph (by decide) rfl) htarget
    (tailEntry_scanTarget _ (count_le_two e1 e2)) fun _ => hp.temps (by rw [hph]; decide))

theorem execExtHdr_keeps_inv (hph : s.pc.phase = .exthdr) (h : execExtHdr s = .next t) : Inv t := by
  obtain ⟨p, l1, l2, e1, e2, a, hp⟩ := hi.parseInv hs
  obtain ⟨rfl, hrem4, -, hcount⟩ := hp.entry_of_phase hph
  rcases execExtHdr_eq_next h with rfl | ⟨rem, ty, l, hrem, hmin, hmax, rfl⟩
  · exact hi.raiseError hs trivial
  · obtain rfl := hp.eq_of_remaining hrem
    exact hi.of_parseInv hs Phase.noConfusion (hp.moveTail (.of_eq hph (by decide) rfl)
      (ph := .extval) (xt := some ty) (xl := some l) ⟨by decide, rfl⟩ ⟨rfl, hcount, rfl, l, rfl, hmin, by omega⟩
      fun hne => absurd rfl hne)

end TailSteps

section ExtVal

variable {s : State} {p l1 l2 : Nat} (hph : s.pc.phase = .extval) (ty : Half) {l : Half}
include hph

/-- The commit of the first field: a field of `l` value bytes at 52, and `EXT.SCAN` after it (R183, I5). -/
theorem ParseInv.commitExt1 (h : ParseInv s p l1 l2 false false false) (hmin : 4 ≤ l.toNat)
    (hfit : l.toNat + 4 ≤ s.len.toNat - p) :
    ParseInv (State.setPc { commitExt1 s ty l (BitVec.ofNat 8 (p + 4)) with xtType := none, xtLen := none }
      .scan (BitVec.ofNat 8 (p + 4 + l.toNat)) 1) (p + 4 + l.toNat) l.toNat l2 true false false := by
  have htail : TailPhase s.pc.phase := .of_eq hph (by decide) rfl
  have hp : p = 48 := h.place_tail htail
  exact
    { len_le := h.len_le
      pos := rfl
      pos_le := show p + 4 + l.toNat ≤ s.len.toNat by omega
      extcnt := rfl
      sections :=
        { h.sections with
          ext1Valid := rfl
          order := fun h => absurd h (by decide)
          ext1 := ⟨rfl, by rw [BitVec.ofNat_toNat]; rfl, by rw [hp]; rfl, hmin⟩ }
      header := { h.header_tail htail with }
      len_ge := fun _ => h.len_ge htail.ne_chk
      place := by simp [hp, headerPos, tailBytes]; omega
      entry := rfl
      temps := fun _ => ⟨rfl, rfl⟩ }

/-- The commit of the second field: a field of `l` value bytes after the first one (R183, I6). -/
theorem ParseInv.commitExt2 (h : ParseInv s p l1 l2 true false false) (hmin : 4 ≤ l.toNat)
    (hfit : l.toNat + 4 ≤ s.len.toNat - p) :
    ParseInv (State.setPc { commitExt2 s ty l (BitVec.ofNat 8 (p + 4)) with xtType := none, xtLen := none }
      .scan (BitVec.ofNat 8 (p + 4 + l.toNat)) 2) (p + 4 + l.toNat) l1 l.toNat true true false := by
  have htail : TailPhase s.pc.phase := .of_eq hph (by decide) rfl
  have hp : p = 48 + (4 + l1) := h.place_tail htail
  have hoff : p + 4 = 52 + l1 + 4 := by omega
  exact
    { len_le := h.len_le
      pos := rfl
      pos_le := show p + 4 + l.toNat ≤ s.len.toNat by omega
      extcnt := rfl
      sections :=
        { h.sections with
          ext2Valid := rfl
          order := fun _ => rfl
          ext2 := ⟨rfl, by rw [BitVec.ofNat_toNat]; rfl, by rw [hoff]; rfl, hmin⟩ }
      header := { h.header_tail htail with }
      len_ge := fun _ => h.len_ge htail.ne_chk
      place := by simp [hp, headerPos, tailBytes]; omega
      entry := rfl
      temps := fun _ => ⟨rfl, rfl⟩ }

end ExtVal

section LastSteps

variable {s t : State} (hi : Inv s) (hs : s.status = .busy)
include hi hs

theorem execExtVal_keeps_inv (hph : s.pc.phase = .extval) (h : execExtVal s = .next t) : Inv t := by
  obtain ⟨p, l1, l2, e1, e2, a, hp⟩ := hi.parseInv hs
  obtain ⟨rfl, -, -, l', hl', hmin, hfit⟩ := hp.entry_of_phase hph
  obtain ⟨q, c, ty, l, hq, hc, -, hl, h⟩ := execExtVal_eq_next h
  obtain rfl : l = l' := Option.some.inj (hl.symm.trans hl')
  obtain rfl := hp.toNat_of_pos_eq hq
  obtain rfl : c = _ := Option.some.inj (hc.symm.trans hp.extcnt)
  have horder := hp.sections.order
  rcases h with ⟨h0, rfl⟩ | ⟨h1, rfl⟩
  · obtain ⟨rfl, rfl⟩ : e1 = false ∧ e2 = false := by cases e1 <;> cases e2 <;> simp_all
    have hcommit := hp.commitExt1 hph ty hmin hfit
    exact hi.of_parseInv hs Phase.noConfusion hcommit
  · obtain ⟨rfl, rfl⟩ : e1 = true ∧ e2 = false := by cases e1 <;> cases e2 <;> simp_all
    have hcommit := hp.commitExt2 hph ty hmin hfit
    exact hi.of_parseInv hs Phase.noConfusion hcommit

theorem execAuthLd_keeps_inv (hph : s.pc.phase = .auth) (h : execAuthLd s = .next t) : Inv t := by
  obtain ⟨p, l1, l2, e1, e2, a, hp⟩ := hi.parseInv hs
  obtain ⟨rfl, hrem⟩ := hp.entry_of_phase hph
  obtain ⟨q, k, d, hq, rfl⟩ := execAuthLd_eq_next h
  obtain rfl := hp.toNat_of_pos_eq hq
  have htail : TailPhase s.pc.phase := .of_eq hph (by decide) rfl
  have hplace := hp.place_tail htail
  exact hi.of_parseInv hs Phase.noConfusion (p := q.toNat + 20) (l1 := l1) (l2 := l2) (e1 := e1) (e2 := e2) (a := true)
    { len_le := hp.len_le
      pos := rfl
      pos_le := show q.toNat + 20 ≤ s.len.toNat by omega
      extcnt := hp.extcnt
      sections := { hp.sections with authValid := rfl, keyId := rfl, digest := rfl }
      header := { hp.header_tail htail with }
      len_ge := fun _ => hp.len_ge htail.ne_chk
      place := by simp [headerPos, tailBytes] at hplace ⊢; omega
      entry := .inl (show s.len.toNat - (q.toNat + 20) = 0 by omega)
      temps := fun _ => hp.temps (by rw [hph]; decide) }

theorem execFinChk_keeps_inv (hph : s.pc.phase = .fin) (h : execFinChk s = .next t) : Inv t := by
  obtain ⟨p, l1, l2, e1, e2, a, hp⟩ := hi.parseInv hs
  have htail : TailPhase s.pc.phase := .of_eq hph (by decide) rfl
  obtain ⟨rem, hrem, ⟨-, rfl⟩ | ⟨hne, rfl⟩⟩ := execFinChk_eq_next h
  · obtain ⟨-, hnoError, -, hsec, hfrac, hout, -⟩ := hi.busyHolds hs
    obtain ⟨hty, hl⟩ := hp.temps (by rw [hph]; decide)
    have hsize : 48 + tailBytes e1 e2 a l1 l2 ≤ 128 := hp.place_tail htail ▸ hp.pos_le.trans hp.len_le
    refine ⟨(wf_iff _).mpr ⟨hi.bufWf, hi.outWf⟩, (statusHolds_of_ok rfl).mpr ⟨⟨rfl, hty, hl⟩, hnoError, .inl ?_⟩⟩
    exact ⟨rfl, hsec, hfrac, hout, hp.header_tail htail, l1, l2, e1, e2, a, hp.sections.congr rfl rfl rfl rfl, hsize⟩
  · obtain rfl := hp.eq_of_remaining hrem
    exact hi.raiseError hs ⟨Nat.one_le_iff_ne_zero.mpr hne, hp.rem_le_of_fin hph⟩

/-- The step that the phase selects keeps the invariant. -/
theorem exec_keeps_inv_of_busy {i : Instr} (hd : decodePhase s.pc.phase = .ok i) (h : exec i s = .next t) : Inv t := by
  generalize hph : s.pc.phase = ph at hd
  cases ph <;> cases hd
  case chk => exact execChkHdr12_keeps_inv hi hs hph h
  case b0 => exact execUnpkB0_keeps_inv hi hs hph h
  case stratum => exact execLdStratum_keeps_inv hi hs hph h
  case poll => exact execLdPoll_keeps_inv hi hs hph h
  case prec => exact execLdPrec_keeps_inv hi hs hph h
  case rdelay => exact execLdRdelay_keeps_inv hi hs hph h
  case rdisp => exact execLdRdisp_keeps_inv hi hs hph h
  case refid => exact execLdRefid_keeps_inv hi hs hph h
  case tsref => exact execTsRef_keeps_inv hi hs hph h
  case tsorg => exact execTsOrg_keeps_inv hi hs hph h
  case tsrcv => exact execTsRcv_keeps_inv hi hs hph h
  case tsxmt => exact execTsXmt_keeps_inv hi hs hph h
  case scan => exact execExtScan_keeps_inv hi hs hph h
  case exthdr => exact execExtHdr_keeps_inv hi hs hph h
  case extval => exact execExtVal_keeps_inv hi hs hph h
  case auth => exact execAuthLd_keeps_inv hi hs hph h
  case fin => exact execFinChk_keeps_inv hi hs hph h

end LastSteps

/-- Settles O35: a step of a machine that is not BUSY is the START event; a BUSY one runs the step of its phase. -/
theorem stepKeepsInvariant : Obligations.StepKeepsInvariant := by
  intro s t hi h
  by_cases hs : s.status = .busy
  · cases hd : decodePhase s.pc.phase with
    | ok i => exact exec_keeps_inv_of_busy hi hs hd (step_of_busy hs hd ▸ h)
    | error r => exact absurd (decodePhase_eq_error hd) (hi.phase_ne_idle hs)
  · exact startEvent_keeps_inv hi (step_of_not_busy hs ▸ h)

end Sys2Proof.Machine
end

section
/-! PROOFS. The frames over all instructions of spec 10_state (R45, R37, R40), the successful end (R42 I7), and the reset
(R44, R280). -/

namespace Sys2Proof.Machine

/-! ## The host's side and `OUT` -/

/-- The host's side and all of `OUT` are as they were. -/
def StepFrame (s t : State) : Prop := SameHostSide s t ∧ t.out = s.out

theorem StepFrame.refl (s : State) : StepFrame s s := ⟨⟨rfl, rfl, rfl, rfl, rfl, fun _ => rfl⟩, rfl⟩

/-- A step ends within the frame when its value's state does: the error exit writes neither side (R245). -/
theorem Eff.finish_frame {α : Type} {x : Eff α} {s t : State} {k : α → State} (h : x.finish s k = .next t)
    (hk : ∀ a, StepFrame s (k a)) : StepFrame s t := by
  rcases Eff.finish_eq_next.mp h with ⟨a, -, rfl⟩ | ⟨e, -, rfl⟩
  · exact hk a
  · exact .refl s

/-- Every instruction but the three commands that act at START leaves the host's side and `OUT` (R45, R37). -/
theorem exec_frame {i : Instr} {s t : State} (hi : i ∉ [Instr.pktDec, .tsDec, .tsEnc]) (h : exec i s = .next t) :
    StepFrame s t := by
  cases i
  case pktDec | tsDec | tsEnc => exact absurd (by decide) hi
  case nop | modeReserved | modeSymmetricActive | modeSymmetricPassive | modeClient | modeServer | modeBroadcast
      | modeControl | modeReservedPrivate =>
    cases h
    exact .refl s
  case chkHdr12 | unpkB0 | ldStratum | ldPoll | ldPrec | ldRdelay | ldRdisp | ldRefid | tsRef | tsOrg | tsRcv | tsXmt
      | extScan | extHdr | authLd | finChk =>
    exact Eff.finish_frame h fun _ => .refl s
  case extVal =>
    obtain ⟨p, c, ty, l, -, -, -, -, ⟨-, rfl⟩ | ⟨-, rfl⟩⟩ := execExtVal_eq_next h
    · exact .refl s
    · exact .refl s

/-- The own part of `TS.DEC` leaves the host's side and `OUT` (R132). -/
theorem tsDecAction_frame {s t : State} (h : tsDecAction s = .next t) : StepFrame s t :=
  Eff.finish_frame h fun _ => .refl s

/-- A START while BUSY changes nothing (R216). -/
theorem eq_of_onStart_busy {s t : State} {body : State → Outcome} (hs : s.status = .busy)
    (h : onStart s body = .next t) : t = s := by
  rcases onStart_eq_next.mp h with ⟨-, ht⟩ | ⟨hne, -⟩
  · exact ht
  · exact absurd hs hne

/-- `PKT.DEC` is ignored while BUSY, or does the START action and goes to `P_CHK` (R210, R216). -/
theorem execPktDec_eq_next {s t : State} (h : execPktDec s = .next t) :
    (s.status = .busy ∧ t = s) ∨ (s.status ≠ .busy ∧ t = (startAction s).setPc .chk 0 0) := by
  rcases onStart_eq_next.mp h with hbusy | ⟨hs, -, hb⟩
  · exact .inl hbusy
  · cases hb
    exact .inr ⟨hs, rfl⟩

/-- A START leaves the host's side when the command's own part does (R210). -/
theorem onStart_sameHostSide {s t : State} {body : State → Outcome}
    (h : onStart s body = .next t) (hbody : body (startAction s) = .next t → SameHostSide (startAction s) t) :
    SameHostSide s t := by
  rcases onStart_eq_next.mp h with ⟨-, rfl⟩ | ⟨-, -, hb⟩
  · exact (StepFrame.refl t).1
  · exact hbody hb

/-- Settles O30: the three commands act on the state of the START action, which keeps the host's side; every other
instruction keeps it by its frame. -/
theorem engineNeverWritesTheHostSide : Obligations.EngineNeverWritesTheHostSide := by
  intro i s t h
  by_cases hi : i ∈ [Instr.pktDec, .tsDec, .tsEnc]
  · simp only [List.mem_cons, List.not_mem_nil, or_false] at hi
    rcases hi with rfl | rfl | rfl
    · rcases execPktDec_eq_next h with ⟨-, rfl⟩ | ⟨-, rfl⟩
      · exact (StepFrame.refl t).1
      · exact (StepFrame.refl s).1
    · exact onStart_sameHostSide h fun hb => (tsDecAction_frame hb).1
    · refine onStart_sameHostSide h fun hb => ?_
      cases hb
      exact (StepFrame.refl (startAction s)).1
  · exact (exec_frame hi h).1

/-- An accepted `PKT.DEC` or `TS.DEC` leaves `OUT` as the START action empties it (R210). -/
theorem out_nil_of_accepted {i : Instr} {s t : State} (hi : i ∈ [Instr.pktDec, .tsDec]) (hs : s.status ≠ .busy)
    (h : exec i s = .next t) : t.out = [] := by
  simp only [List.mem_cons, List.not_mem_nil, or_false] at hi
  rcases hi with rfl | rfl
  · rcases execPktDec_eq_next h with ⟨hbusy, -⟩ | ⟨-, rfl⟩
    · exact absurd hbusy hs
    · rfl
  · rcases onStart_eq_next.mp h with ⟨hbusy, -⟩ | ⟨-, -, hb⟩
    · exact absurd hbusy hs
    · exact (tsDecAction_frame hb).2

/-- A command that acts at START changes nothing while BUSY (R216). -/
theorem eq_of_command_busy {i : Instr} {s t : State} (hi : i ∈ [Instr.pktDec, .tsDec, .tsEnc]) (hs : s.status = .busy)
    (h : exec i s = .next t) : t = s := by
  simp only [List.mem_cons, List.not_mem_nil, or_false] at hi
  rcases hi with rfl | rfl | rfl
  · exact eq_of_onStart_busy (body := fun s' => .next (s'.setPc .chk 0 0)) hs h
  · exact eq_of_onStart_busy hs h
  · exact eq_of_onStart_busy hs h

/-- Settles O31, clause by clause: the frame of the other instructions, an accepted START, a START while BUSY. -/
theorem outIsWrittenByTsEncOnly : Obligations.OutIsWrittenByTsEncOnly := by
  intro i s t h a
  refine ⟨fun hi => ?_, fun hi hs => ?_, fun hi hs => ?_⟩
  · rw [(exec_frame hi h).2]
  · rw [out_nil_of_accepted hi hs h]
    rfl
  · rw [eq_of_command_busy hi hs h]

/-! ## The validity flags -/

/-- Everything an instruction that answers can do to the three validity flags (R40). -/
inductive FlagMove (i : Instr) (s t : State) : Prop
  /-- They are as they were. -/
  | kept (h1 : t.ext1Valid = s.ext1Valid) (h2 : t.ext2Valid = s.ext2Valid) (ha : t.authValid = s.authValid)
  /-- The command ended: an error, or a timestamp command's completion (R245, R132, R133). -/
  | lost (hend : t.status ≠ .busy) (h1 : t.ext1Valid = none) (h2 : t.ext2Valid = none) (ha : t.authValid = none)
  /-- The START of `PKT.DEC` (R210). -/
  | cleared (hi : i = .pktDec) (h1 : t.ext1Valid = some false) (h2 : t.ext2Valid = some false)
      (ha : t.authValid = some false)
  /-- `EXT.VAL` committed the first field (R183). -/
  | ext1 (hi : i = .extVal) (hc : s.pc.extcnt = some 0) (h2 : t.ext2Valid = s.ext2Valid) (ha : t.authValid = s.authValid)
  /-- `EXT.VAL` committed the second field (R183). -/
  | ext2 (hi : i = .extVal) (hc : s.pc.extcnt = some 1) (h1 : t.ext1Valid = s.ext1Valid) (ha : t.authValid = s.authValid)
  /-- `AUTH.LD` committed the trailer (R184). -/
  | auth (hi : i = .authLd) (h1 : t.ext1Valid = s.ext1Valid) (h2 : t.ext2Valid = s.ext2Valid)

theorem flagMove_refl (i : Instr) (s : State) : FlagMove i s s := .kept rfl rfl rfl

theorem flagMove_raiseError (i : Instr) (e : DecodeError) (s u : State) : FlagMove i s (raiseError e u) :=
  .lost Status.noConfusion rfl rfl rfl

/-- A step whose value's state moves the flags in one of these ways does so: the error exit takes them away (R245). -/
theorem Eff.finish_flagMove {α : Type} {x : Eff α} {i : Instr} {s u t : State} {k : α → State}
    (h : x.finish u k = .next t) (hk : ∀ a, FlagMove i s (k a)) : FlagMove i s t := by
  rcases Eff.finish_eq_next.mp h with ⟨a, -, rfl⟩ | ⟨e, -, rfl⟩
  · exact hk a
  · exact flagMove_raiseError i e s u

/-- A START moves the flags as the command's own part does; ignored, it keeps them (R216). -/
theorem onStart_flagMove {i : Instr} {s t : State} {body : State → Outcome}
    (h : onStart s body = .next t) (hbody : body (startAction s) = .next t → FlagMove i s t) : FlagMove i s t := by
  rcases onStart_eq_next.mp h with ⟨-, rfl⟩ | ⟨-, -, hb⟩
  · exact flagMove_refl i t
  · exact hbody hb

theorem exec_flagMove {i : Instr} {s t : State} (h : exec i s = .next t) : FlagMove i s t := by
  cases i
  case nop | modeReserved | modeSymmetricActive | modeSymmetricPassive | modeClient | modeServer | modeBroadcast
      | modeControl | modeReservedPrivate =>
    cases h
    exact flagMove_refl _ s
  case pktDec =>
    rcases execPktDec_eq_next h with ⟨-, rfl⟩ | ⟨-, rfl⟩
    · exact flagMove_refl _ t
    · exact .cleared rfl rfl rfl rfl
  case tsDec =>
    exact onStart_flagMove h fun hb => Eff.finish_flagMove hb fun _ => .lost Status.noConfusion rfl rfl rfl
  case tsEnc =>
    refine onStart_flagMove h fun hb => ?_
    cases hb
    exact .lost Status.noConfusion rfl rfl rfl
  case chkHdr12 | unpkB0 | ldStratum | ldPoll | ldPrec | ldRdelay | ldRdisp | ldRefid | tsRef | tsOrg | tsRcv | tsXmt
      | extScan | extHdr | finChk =>
    exact Eff.finish_flagMove h fun _ => .kept rfl rfl rfl
  case extVal =>
    obtain ⟨p, c, ty, l, -, hc, -, -, ⟨rfl, rfl⟩ | ⟨rfl, rfl⟩⟩ := execExtVal_eq_next h
    · exact .ext1 rfl hc rfl rfl
    · exact .ext2 rfl hc rfl rfl
  case authLd =>
    exact Eff.finish_flagMove h fun _ => .auth rfl rfl rfl

/-- Settles O33, by what an instruction can do to the flags. -/
theorem flagsAreSetByTheirStepOnly : Obligations.FlagsAreSetByTheirStepOnly := by
  intro i s t h
  cases exec_flagMove h with
  | kept h1 h2 ha =>
    rw [h1, h2, ha]
    exact ⟨.inl, .inl, .inl, fun _ _ => ⟨rfl, rfl, rfl⟩⟩
  | lost hend h1 h2 ha =>
    rw [h1, h2, ha]
    exact ⟨nofun, nofun, nofun, fun hbusy => absurd hbusy hend⟩
  | cleared hi h1 h2 ha =>
    rw [h1, h2, ha]
    exact ⟨nofun, nofun, nofun, fun _ hnot => absurd (by simp [hi]) hnot⟩
  | ext1 hi hc h2 ha =>
    rw [h2, ha]
    exact ⟨fun _ => .inr ⟨hi, hc⟩, .inl, .inl, fun _ hnot => absurd (by simp [hi]) hnot⟩
  | ext2 hi hc h1 ha =>
    rw [h1, ha]
    exact ⟨.inl, fun _ => .inr ⟨hi, hc⟩, .inl, fun _ hnot => absurd (by simp [hi]) hnot⟩
  | auth hi h1 h2 =>
    rw [h1, h2]
    exact ⟨.inl, .inl, fun _ => .inr hi, fun _ hnot => absurd (by simp [hi]) hnot⟩

/-! ## The successful end -/

/-- Settles O38: `FIN.CHK` completes only with no byte left, where the position, which counts the sections' bytes, is
`LEN`. -/
theorem successfulEndCoversEveryByte : Obligations.SuccessfulEndCoversEveryByte := by
  intro s t hi hs h hph hok
  obtain ⟨p, l1, l2, e1, e2, a, hp⟩ := hi.parseInv hs
  have hplace : p = 48 + tailBytes e1 e2 a l1 l2 := hp.place_tail (.of_eq hph (by decide) rfl)
  obtain ⟨rem, hrem, ⟨h0, rfl⟩ | ⟨-, rfl⟩⟩ := execFinChk_eq_next h
  · have hle : s.len.toNat ≤ p := Nat.le_of_sub_eq_zero ((hp.eq_of_remaining hrem).symm.trans h0)
    exact ⟨e1, e2, a, l1, l2, hp.sections.congr rfl rfl rfl rfl, hplace.symm.trans (hp.pos_le.antisymm hle)⟩
  · cases hok

/-! ## Reset -/

/-- Settles O34: the reset state is a reset event in which the environment left zeros. -/
theorem resetSatisfiesInvariant : Obligations.ResetSatisfiesInvariant := inv_applyReset ⟨[], 0, 0, 0⟩

/-- After a reset the bytes of `BUF` are those the environment left (R281). -/
theorem bufRead_applyReset (left : Residue) {a : Nat} (ha : a < 128) :
    bufRead (applyReset left).buf a = left.bytes.getD a 0 := by
  have hlen : 0 + (left.bytes.take 128).length ≤ 128 := by simp
  have hread := bufRead_bufLoad bufWf_nil hlen a
  rw [Nat.zero_add, Nat.sub_zero] at hread
  refine hread.trans ?_
  by_cases hin : a < left.bytes.length
  · rw [if_pos ⟨Nat.zero_le a, by simp [ha, hin]⟩]
    simp [List.getD_eq_getElem?_getD, ha]
  · rw [if_neg (by simp [hin])]
    simp [List.getD_eq_getElem?_getD, List.getElem?_eq_none (Nat.le_of_not_lt hin), bufRead, Memory.lookup, unlistedByte]

/-- A step after a reset is a START of NOP (R211; log 5). -/
theorem step_applyReset (left : Residue) : step (applyReset left) = .next (applyReset left) :=
  (step_of_not_busy Status.noConfusion).trans (startEvent_eq _)

/-- Settles O50: the state after a reset is `applyReset`, read register by register. -/
theorem resetEventSetsTheTable : Obligations.ResetEventSetsTheTable := by
  intro left s
  exact ⟨applyReset left, rfl, rfl, rfl, rfl, rfl, rfl, rfl, rfl, rfl, fun _ => rfl, rfl, rfl, rfl, rfl, rfl, rfl, rfl,
    rfl, rfl, rfl, rfl, rfl, fun _ ha => bufRead_applyReset left ha, step_applyReset left⟩

end Sys2Proof.Machine
end

section
/-! PROOFS. The two memories byte by byte (spec 20_memory R62 to R65, R70): the value a big-endian read assembles, its bits
and its width, where a read stops, and the bytes a big-endian write stores. -/

namespace Sys2Proof.Machine

/-! ## The big-endian value of a byte string -/

theorem bufBytes_succ (m : Memory) (a n : Nat) : bufBytes m a (n + 1) = bufBytes m a n ++ [bufRead m (a + n)] := by
  simp [bufBytes, List.range_succ]

@[simp] theorem bufBytes_length (m : Memory) (a n : Nat) : (bufBytes m a n).length = n := by
  simp [bufBytes]

theorem beNat_concat (bs : List Byte) (b : Byte) : beNat (bs ++ [b]) = beNat bs * 256 + b.toNat := by
  simp [beNat]

/-- One more byte read goes below the value of those before it (R62). -/
theorem beNat_bufBytes_succ (m : Memory) (a n : Nat) :
    beNat (bufBytes m a (n + 1)) = beNat (bufBytes m a n) * 256 + (bufRead m (a + n)).toNat := by
  rw [bufBytes_succ, beNat_concat]

/-- A value read is as wide as its bytes (R64). -/
theorem beNat_lt (bs : List Byte) : beNat bs < 2 ^ (8 * bs.length) := by
  induction bs using List.reverseRecOn with
  | nil => decide
  | append_singleton bs b ih =>
    have hb : b.toNat < 256 := b.isLt
    rw [beNat_concat, List.length_append, List.length_singleton, Nat.mul_add, Nat.pow_add]
    omega

/-- The bits of the lowest byte, and those of the bytes above it. -/
theorem testBit_mul_256_add (v : Nat) (b : Byte) (k : Nat) :
    (v * 256 + b.toNat).testBit k = if k < 8 then b.getLsbD k else v.testBit (k - 8) := by
  rw [Nat.mul_comm]
  exact Nat.testBit_two_pow_mul_add v (i := 8) b.isLt k

/-- Settles O5, by induction on the width: the last byte read holds bits 0 to 7, the rest moves up by eight. -/
theorem bigEndianBitPlacement : Obligations.BigEndianBitPlacement := by
  intro m a n i j hi hj
  induction n generalizing j with
  | zero => omega
  | succ n ih =>
    rw [beNat_bufBytes_succ, testBit_mul_256_add]
    cases j with
    | zero => simp [hi]
    | succ j =>
      have hbit : 8 * (j + 1) + i - 8 = 8 * j + i := by omega
      have hbyte : a + (n + 1) - 1 - (j + 1) = a + n - 1 - j := by omega
      rw [if_neg (by omega), hbit, hbyte]
      exact ih j (by omega)

/-! ## `MemRead` -/

/-- The sum that R64 defines `MemRead` by. -/
theorem beNat_bufBytes_eq_sum (m : Memory) (a n : Nat) :
    beNat (bufBytes m a n) = ((List.range n).map fun k => (bufRead m (a + k)).toNat * 256 ^ (n - 1 - k)).sum := by
  induction n with
  | zero => rfl
  | succ n ih =>
    have hshift : ∀ k ∈ List.range n, (bufRead m (a + k)).toNat * 256 ^ (n + 1 - 1 - k)
        = (bufRead m (a + k)).toNat * 256 ^ (n - 1 - k) * 256 := by
      intro k hk
      have hexp : n + 1 - 1 - k = n - 1 - k + 1 := by have := List.mem_range.mp hk; omega
      rw [hexp, pow_succ, mul_assoc]
    rw [beNat_bufBytes_succ, ih, List.range_succ, List.map_append, List.sum_append, List.map_congr_left hshift,
      List.sum_map_mul_right]
    simp

theorem memRead_val {s : State} {a n : Nat} (h : a + n ≤ s.len.toNat) (h' : a + n ≤ 128) :
    memRead s a n = .val (beNat (bufBytes s.buf a n)) := by
  simp [memRead, readable_val h h']

/-- Settles O6: the value read is the sum of R64, and no wider than its bytes. -/
theorem memReadIsBigEndianSum : Obligations.MemReadIsBigEndianSum := by
  intro s a n h h'
  have hwidth : beNat (bufBytes s.buf a n) < 2 ^ (8 * n) := by
    simpa using beNat_lt (bufBytes s.buf a n)
  rw [← beNat_bufBytes_eq_sum]
  exact ⟨memRead_val h h', hwidth⟩

theorem readable_past_length {s : State} {a n : Nat} (h : s.len.toNat < a + n) :
    readable s a n = .stop .readPastLength := by
  have : ¬ a + n ≤ s.len.toNat := by omega
  simp [readable, this]

theorem readable_past_buffer {s : State} {a n : Nat} (h : a + n ≤ s.len.toNat) (h' : 128 < a + n) :
    readable s a n = .stop .noSuchAddress := by
  simp [readable, h, h']

/-- Settles O7: a `MemRead` stops where its guard does, and the guard passes inside `LEN` and `BUF` only. -/
theorem memReadStopsOutsideTheDatagram : Obligations.MemReadStopsOutsideTheDatagram := by
  intro s a n
  refine ⟨fun h => ?_, fun h h' => ?_, fun v hv => ?_⟩
  · rw [memRead, readable_past_length h, Eff.bind_stop]
  · rw [memRead, readable_past_buffer h h', Eff.bind_stop]
  · obtain ⟨u, hguard, -⟩ := Eff.bind_eq_val.mp hv
    exact readable_eq_val.mp hguard

/-! ## `MemWrite` -/

/-- A byte of a value is its bits under the mask of R70. -/
theorem beByte_eq_and_mask (n v k : Nat) : beByte n v k = BitVec.ofNat 8 ((v >>> (8 * (n - 1 - k))) &&& 0xFF) := by
  apply BitVec.eq_of_toNat_eq
  have hmask : ∀ x : Nat, x &&& 0xFF = x % 256 := fun x => Nat.and_two_pow_sub_one_eq_mod x 8
  simp [beByte, hmask]

/-- Settles O8: the addresses written hold the bytes of the value, every other one is as before. -/
theorem memWriteStoresBigEndianBytes : Obligations.MemWriteStoresBigEndianBytes := by
  intro m addr n v a
  refine ⟨fun k hk => ?_, outRead_memWrite_outside m v⟩
  rw [outRead_memWrite_inside m v hk, beByte_eq_and_mask]

end Sys2Proof.Machine
end

section
/-! PROOFS. What a step reads of `BUF` (spec 20_memory R65): the bytes below `LEN` and no others. Two machines that differ in
`BUF` at `LEN` and above alone do the same, move by move. -/

namespace Sys2Proof.Machine

/-! ## Reads of the same datagram -/

/-- The same `LEN`, and the same byte at every address below it. -/
def SameDatagram (s t : State) : Prop := t.len = s.len ∧ ∀ a < s.len.toNat, bufRead t.buf a = bufRead s.buf a

theorem SameHostSide.sameDatagram {s t : State} (h : SameHostSide s t) : SameDatagram s t := by
  obtain ⟨hlen, -, -, -, -, hbuf⟩ := h
  exact ⟨hlen, fun a _ => hbuf a⟩

theorem SameOperands.sameDatagram {s t : State} (h : SameOperands s t) : SameDatagram s t := by
  obtain ⟨hlen, -, -, -, -, hbuf⟩ := h
  exact ⟨hlen, hbuf⟩

theorem SameDatagram.symm {s t : State} (h : SameDatagram s t) : SameDatagram t s :=
  ⟨h.1.symm, fun a ha => (h.2 a (h.1 ▸ ha)).symm⟩

theorem SameDatagram.trans {s t u : State} (h : SameDatagram s t) (h' : SameDatagram t u) : SameDatagram s u :=
  ⟨h'.1.trans h.1, fun a ha => (h'.2 a (h.1.symm ▸ ha)).trans (h.2 a ha)⟩

section SameDatagram

variable {s t : State} (h : SameDatagram s t)
include h

theorem SameDatagram.readable_eq (a n : Nat) : readable t a n = readable s a n := by
  simp [readable, h.1]

theorem SameDatagram.bufBytes_eq {a n : Nat} (hn : a + n ≤ s.len.toNat) : bufBytes t.buf a n = bufBytes s.buf a n :=
  List.map_congr_left fun k hk => h.2 (a + k) (by have := List.mem_range.mp hk; omega)

/-- A value that is read under the guard of `MemRead` is the same in both (R65). -/
theorem SameDatagram.guarded_eq {α : Type} {a n : Nat} {x y : Eff α} (hxy : a + n ≤ s.len.toNat → x = y) :
    ((readable t a n).bind fun _ => x) = (readable s a n).bind fun _ => y := by
  rw [h.readable_eq]
  cases hg : readable s a n with
  | val u => exact hxy (readable_eq_val.mp hg).1
  | raised e => rfl
  | stop f => rfl

theorem SameDatagram.memRead_eq (a n : Nat) : memRead t a n = memRead s a n :=
  h.guarded_eq fun hn => by rw [h.bufBytes_eq hn]

theorem SameDatagram.readU8_eq (a : Nat) : readU8 t a = readU8 s a := by
  rw [readU8, h.memRead_eq, readU8]

theorem SameDatagram.readU16_eq (a : Nat) : readU16 t a = readU16 s a := by
  rw [readU16, h.memRead_eq, readU16]

theorem SameDatagram.readU32_eq (a : Nat) : readU32 t a = readU32 s a := by
  rw [readU32, h.memRead_eq, readU32]

theorem SameDatagram.readDigest_eq (a : Nat) : readDigest t a = readDigest s a := by
  refine h.guarded_eq fun hn => ?_
  have hbytes : ∀ i : Fin 16, bufRead t.buf (a + i.val) = bufRead s.buf (a + i.val) :=
    fun i => h.2 _ (lt_of_lt_of_le (Nat.add_lt_add_left i.isLt a) hn)
  simp [hbytes]

theorem SameDatagram.tsDecode_eq (off : Nat) : tsDecode t off = tsDecode s off := by
  simp [tsDecode, h.1, h.readU32_eq]

end SameDatagram

/-! ## Another `BUF` under the same machine -/

/-- The machine with other contents of `BUF`. -/
def State.withBuf (s : State) (m : Memory) : State := { s with buf := m }

/-- An outcome with other contents of `BUF` in its next state. -/
def withBufOutcome (o : Outcome) (m : Memory) : Outcome :=
  match o with
  | .next t => .next (t.withBuf m)
  | .fault f => .fault f
  | .refused r => .refused r

@[simp] theorem withBufOutcome_next (t : State) (m : Memory) : withBufOutcome (.next t) m = .next (t.withBuf m) := rfl

/-- Two steps whose bodies agree, and whose values' states agree but for `BUF`, have outcomes that agree but for `BUF`: the
error exit writes no byte of it (R245). -/
theorem Eff.finish_withBuf {α : Type} {x x' : Eff α} {s : State} {m : Memory} {k k' : α → State} (hx : x' = x)
    (hk : ∀ a, k' a = (k a).withBuf m) : x'.finish (s.withBuf m) k' = withBufOutcome (x.finish s k) m := by
  subst hx
  cases x' with
  | val a => simp [hk]
  | raised e => rfl
  | stop f => rfl

/-- Past a part of the body that agrees, the rest of the body decides whether the outcomes agree but for `BUF`. -/
theorem Eff.finish_bind_withBuf {α β : Type} (x : Eff α) {s : State} {m : Memory} {k k' : α → Eff β} {f : β → State}
    (hk : ∀ a, (k' a).finish (s.withBuf m) f = withBufOutcome ((k a).finish s f) m) :
    (x.bind k').finish (s.withBuf m) f = withBufOutcome ((x.bind k).finish s f) m := by
  cases x with
  | val a => exact hk a
  | raised e => rfl
  | stop f => rfl

section WithBuf

variable {s : State} {m : Memory}

theorem onStart_withBuf {body : State → Outcome}
    (hbody : body ((startAction s).withBuf m) = withBufOutcome (body (startAction s)) m) :
    onStart (s.withBuf m) body = withBufOutcome (onStart s body) m := by
  unfold onStart
  rw [apply_ite (withBufOutcome · m), apply_ite (withBufOutcome · m), ← hbody]
  rfl

/-- `EXT.VAL` reads no byte of `BUF` (R183). -/
theorem execExtVal_withBuf : execExtVal (s.withBuf m) = withBufOutcome (execExtVal s) m := by
  refine Eff.finish_bind_withBuf (readPos s) fun p => Eff.finish_bind_withBuf (readExtcnt s) fun c =>
    Eff.finish_bind_withBuf (readXtType s) fun ty => Eff.finish_bind_withBuf (readXtLen s) fun l =>
    Eff.finish_bind_withBuf (newPos (p + 4 + l.toNat)) fun q => ?_
  unfold commitExt
  split_ifs <;> rfl

variable (h : SameDatagram s (s.withBuf m))
include h

theorem tsAtPos_withBuf : tsAtPos (s.withBuf m) = tsAtPos s := by
  simp only [tsAtPos, h.tsDecode_eq]
  rfl

theorem execLdRefid_withBuf : execLdRefid (s.withBuf m) = withBufOutcome (execLdRefid s) m :=
  Eff.finish_withBuf (by rw [h.readU32_eq]; rfl) fun _ => rfl

theorem execExtHdr_withBuf : execExtHdr (s.withBuf m) = withBufOutcome (execExtHdr s) m :=
  Eff.finish_withBuf (by simp only [h.readU16_eq]; rfl) fun _ => rfl

theorem execAuthLd_withBuf : execAuthLd (s.withBuf m) = withBufOutcome (execAuthLd s) m :=
  Eff.finish_withBuf (by simp only [h.readU32_eq, h.readDigest_eq]; rfl) fun _ => rfl

/-- Bytes of `BUF` past `LEN` have no influence on what an instruction does (R65b), and none is changed by it. -/
theorem exec_withBuf (i : Instr) : exec i (s.withBuf m) = withBufOutcome (exec i s) m := by
  cases i
  case nop | modeReserved | modeSymmetricActive | modeSymmetricPassive | modeClient | modeServer | modeBroadcast
      | modeControl | modeReservedPrivate => rfl
  case pktDec => exact onStart_withBuf (body := fun s' => .next (s'.setPc .chk 0 0)) rfl
  case tsDec =>
    have hstart : SameDatagram (startAction s) ((startAction s).withBuf m) := h
    exact onStart_withBuf (Eff.finish_withBuf (hstart.tsDecode_eq s.off.toNat) fun _ => rfl)
  case tsEnc => exact onStart_withBuf (body := tsEncAction) rfl
  case chkHdr12 | extScan | finChk => exact Eff.finish_withBuf rfl fun _ => rfl
  case unpkB0 | ldStratum | ldPoll | ldPrec => exact Eff.finish_withBuf (h.readU8_eq _) fun _ => rfl
  case ldRdelay | ldRdisp => exact Eff.finish_withBuf (h.readU32_eq _) fun _ => rfl
  case ldRefid => exact execLdRefid_withBuf h
  case tsRef | tsOrg | tsRcv | tsXmt => exact Eff.finish_withBuf (tsAtPos_withBuf h) fun _ => rfl
  case extHdr => exact execExtHdr_withBuf h
  case extVal => exact execExtVal_withBuf
  case authLd => exact execAuthLd_withBuf h

theorem step_withBuf : step (s.withBuf m) = withBufOutcome (step s) m := by
  show runSelected s.selector (s.withBuf m) = withBufOutcome (runSelected s.selector s) m
  unfold runSelected
  cases (decode s.selector).toOption with
  | some i => exact exec_withBuf h i
  | none => rfl

end WithBuf

/-- A step leaves the datagram as it is (R45, R210). -/
theorem step_sameDatagram {s t : State} (h : step s = .next t) : SameDatagram s t := by
  unfold step runSelected at h
  cases hd : (decode s.selector).toOption with
  | some i =>
    rw [hd] at h
    exact (engineNeverWritesTheHostSide i s t h).sameDatagram
  | none =>
    rw [hd] at h
    cases h
    exact ⟨rfl, fun _ _ => rfl⟩

/-- A step changes no byte of `BUF`, so a machine that shared its datagram with another `BUF` still does. -/
theorem SameDatagram.withBuf_of_step {s t : State} {m : Memory} (h : SameDatagram s (s.withBuf m))
    (hst : step s = .next t) : SameDatagram t (t.withBuf m) := by
  obtain ⟨hlen, hbuf⟩ := step_sameDatagram hst
  refine ⟨rfl, fun a ha => ?_⟩
  rw [hlen] at ha
  exact (h.2 a ha).trans (hbuf a ha).symm

/-- Bytes of `BUF` past `LEN` have no influence on a run of the engine (R65b). -/
theorem engineMoves_withBuf {s : State} {m : Memory} (h : SameDatagram s (s.withBuf m)) (k : Nat) :
    engineMoves k (s.withBuf m) = withBufOutcome (engineMoves k s) m := by
  induction k generalizing s with
  | zero => rfl
  | succ k ih =>
    by_cases hs : s.status = .busy
    · have hs' : (s.withBuf m).status = .busy := hs
      simp only [engineMoves, hs, hs', if_true, step_withBuf h]
      cases hst : step s with
      | next t => exact ih (h.withBuf_of_step hst)
      | fault f => rfl
      | refused r => rfl
    · rw [engineMoves_of_not_busy hs, engineMoves_of_not_busy (s := s.withBuf m) hs, withBufOutcome_next]

end Sys2Proof.Machine
end

section
/-! PROOFS. Inside the invariant of spec 10_state R42 no step of the engine stops at a guard of the model (20_memory R65,
43_sequencer_commands R220), so a run of the engine answers a state. -/

namespace Sys2Proof.Machine

/-! ## Bodies that meet no guard -/

/-- The body comes to a value or to a decode error. -/
def Eff.NoStop {α : Type} (x : Eff α) : Prop := ∀ f, x ≠ .stop f

theorem Eff.noStop_val {α : Type} (a : α) : (Eff.val a).NoStop := nofun

theorem Eff.noStop_raised {α : Type} (e : DecodeError) : (Eff.raised e : Eff α).NoStop := nofun

theorem Eff.noStop_of_eq_val {α : Type} {x : Eff α} {a : α} (h : x = .val a) : x.NoStop := h ▸ Eff.noStop_val a

theorem Eff.noStop_check (b : Bool) (e : DecodeError) : (Eff.check b e).NoStop := by
  cases b <;> nofun

theorem Eff.NoStop.bind {α β : Type} {x : Eff α} {k : α → Eff β} (hx : x.NoStop)
    (hk : ∀ a, x = .val a → (k a).NoStop) : (x.bind k).NoStop := by
  cases x with
  | val a => exact hk a rfl
  | raised e => exact Eff.noStop_raised e
  | stop f => exact absurd rfl (hx f)

/-- A step whose body meets no guard answers a next state. -/
theorem Eff.NoStop.finish {α : Type} {x : Eff α} (hx : x.NoStop) (s : State) (k : α → State) :
    ∃ t, x.finish s k = .next t := by
  cases x with
  | val a => exact ⟨_, rfl⟩
  | raised e => exact ⟨_, rfl⟩
  | stop f => exact absurd rfl (hx f)

/-- `ts_decode` raises where the eight bytes were not received, and otherwise reads them (R131). -/
theorem tsDecode_noStop {s : State} (hlen : s.len.toNat ≤ 128) (off : Nat) : (tsDecode s off).NoStop := by
  by_cases h : off + 8 ≤ s.len.toNat
  · exact Eff.noStop_of_eq_val (tsDecode_val h (h.trans hlen))
  · rw [tsDecode_raised (by omega)]
    exact Eff.noStop_raised _

theorem tsAtPos_noStop {s : State} {p : BitVec 8} (hlen : s.len.toNat ≤ 128) (hp : s.pc.pos = some p) :
    (tsAtPos s).NoStop := by
  rw [tsAtPos, readPos_val hp, Eff.bind_val]
  refine (tsDecode_noStop hlen _).bind fun ts hts => ?_
  have hle : p.toNat + 8 ≤ 128 := (tsDecode_eq_val hts).trans hlen
  exact (Eff.noStop_of_eq_val (newPos_val hle)).bind fun _ _ => Eff.noStop_val _

/-- `LD.REFID` checks that its four bytes were received before it reads them (R158). -/
theorem execLdRefid_answers (s : State) : ∃ t, execLdRefid s = .next t := by
  refine ((Eff.noStop_check _ _).bind fun _ hcheck => ?_).finish s _
  have h16 : 16 ≤ s.len.toNat := of_decide_eq_true (Eff.check_eq_val.mp hcheck)
  exact Eff.noStop_of_eq_val (readU32_val h16 (by decide))

/-! ## The engine's steps inside the invariant -/

theorem ParseInv.readPos_eq {s : State} {p l1 l2 : Nat} {e1 e2 a : Bool} (h : ParseInv s p l1 l2 e1 e2 a) :
    readPos s = .val p := by
  rw [readPos_val h.pos, h.pos_toNat]

section Progress

variable {s : State} (hi : Inv s) (hs : s.status = .busy)
include hi hs

theorem Inv.len_le : s.len.toNat ≤ 128 := by
  obtain ⟨p, l1, l2, e1, e2, a, hp⟩ := hi.parseInv hs
  exact hp.len_le

/-- The header steps that read one of the first twelve bytes meet no guard (R151 to R155). -/
theorem Inv.readU8_noStop (hph : s.pc.phase ≠ .chk) {a : Nat} (ha : a + 1 ≤ 12) : (readU8 s a).NoStop :=
  Eff.noStop_of_eq_val (readU8_val (ha.trans (hi.twelve_le_len hs hph)) (ha.trans (by decide)))

/-- The header steps that read a word of the first twelve bytes meet no guard (R156, R157). -/
theorem Inv.readU32_noStop (hph : s.pc.phase ≠ .chk) {a : Nat} (ha : a + 4 ≤ 12) : (readU32 s a).NoStop :=
  Eff.noStop_of_eq_val (readU32_val (ha.trans (hi.twelve_le_len hs hph)) (ha.trans (by decide)))

theorem Inv.tsAtPos_noStop : (tsAtPos s).NoStop := by
  obtain ⟨p, l1, l2, e1, e2, a, hp⟩ := hi.parseInv hs
  exact Machine.tsAtPos_noStop hp.len_le hp.pos

theorem execExtScan_answers : ∃ t, execExtScan s = .next t := by
  obtain ⟨p, l1, l2, e1, e2, a, hp⟩ := hi.parseInv hs
  simp [execExtScan, hp.remaining_eq, hp.readExtcnt_eq]

theorem execExtHdr_answers (hph : s.pc.phase = .exthdr) : ∃ t, execExtHdr s = .next t := by
  obtain ⟨p, l1, l2, e1, e2, a, hp⟩ := hi.parseInv hs
  obtain ⟨-, hrem, -, -⟩ := hp.entry_of_phase hph
  have hlen := hp.len_le
  rw [execExtHdr, hp.remaining_eq, Eff.bind_val, hp.readPos_eq, Eff.bind_val, readU16_val (by omega) (by omega),
    Eff.bind_val, readU16_val (by omega) (by omega), Eff.bind_val]
  exact ((Eff.noStop_check _ _).bind fun _ _ => Eff.noStop_val _).finish s _

theorem execExtVal_answers (hph : s.pc.phase = .extval) : ∃ t, execExtVal s = .next t := by
  obtain ⟨p, l1, l2, e1, e2, a, hp⟩ := hi.parseInv hs
  obtain ⟨-, hcount, hty, l, hl, -, hfit⟩ := hp.entry_of_phase hph
  obtain ⟨ty, hty⟩ := Option.isSome_iff_exists.mp hty
  have hpos : p + 4 + l.toNat ≤ 128 := by have := hp.len_le; omega
  rw [execExtVal, hp.readPos_eq, Eff.bind_val, hp.readExtcnt_eq, Eff.bind_val, readXtType_eq_val.mpr hty, Eff.bind_val,
    readXtLen_eq_val.mpr hl, Eff.bind_val, newPos_val hpos, Eff.bind_val]
  obtain h0 | h1 : e1.toNat + e2.toNat = 0 ∨ e1.toNat + e2.toNat = 1 := by omega
  · rw [commitExt_eq_val.mpr (.inl ⟨h0, rfl⟩)]
    exact ⟨_, rfl⟩
  · rw [commitExt_eq_val.mpr (.inr ⟨h1, rfl⟩)]
    exact ⟨_, rfl⟩

theorem execAuthLd_answers (hph : s.pc.phase = .auth) : ∃ t, execAuthLd s = .next t := by
  obtain ⟨p, l1, l2, e1, e2, a, hp⟩ := hi.parseInv hs
  obtain ⟨-, hrem⟩ := hp.entry_of_phase hph
  have hlen := hp.len_le
  simp only [execAuthLd, Config.keyIdLen, Config.authLen]
  rw [hp.readPos_eq, Eff.bind_val, readU32_val (by omega) (by omega), Eff.bind_val,
    readDigest_val (by omega) (by omega), Eff.bind_val, newPos_val (by omega)]
  exact ⟨_, rfl⟩

theorem execFinChk_answers : ∃ t, execFinChk s = .next t := by
  obtain ⟨p, l1, l2, e1, e2, a, hp⟩ := hi.parseInv hs
  rw [execFinChk, hp.remaining_eq, Eff.bind_val]
  exact (Eff.noStop_check _ _).finish s _

/-- The step that the phase selects answers a next state. -/
theorem exec_answers_of_busy {i : Instr} (hd : decodePhase s.pc.phase = .ok i) : ∃ t, exec i s = .next t := by
  generalize hph : s.pc.phase = ph at hd
  cases ph <;> cases hd
  case chk => exact (Eff.noStop_check _ _).finish s _
  case b0 | stratum | poll | prec => exact (hi.readU8_noStop hs (by simp [hph]) (by decide)).finish s _
  case rdelay | rdisp => exact (hi.readU32_noStop hs (by simp [hph]) (by decide)).finish s _
  case refid => exact execLdRefid_answers s
  case tsref | tsorg | tsrcv | tsxmt => exact (hi.tsAtPos_noStop hs).finish s _
  case scan => exact execExtScan_answers hi hs
  case exthdr => exact execExtHdr_answers hi hs hph
  case extval => exact execExtVal_answers hi hs hph
  case auth => exact execAuthLd_answers hi hs hph
  case fin => exact execFinChk_answers hi hs

/-- A step of a BUSY machine inside the invariant never stops (R220). -/
theorem step_answers_of_busy : ∃ t, step s = .next t := by
  cases hd : decodePhase s.pc.phase with
  | ok i => exact step_of_busy hs hd ▸ exec_answers_of_busy hi hs hd
  | error r => exact absurd (decodePhase_eq_error hd) (hi.phase_ne_idle hs)

end Progress

/-- A run of the engine from a state of the invariant answers a state. -/
theorem engineMoves_answers {s : State} (hi : Inv s) (k : Nat) : ∃ t, engineMoves k s = .next t := by
  induction k generalizing s with
  | zero => exact ⟨s, rfl⟩
  | succ k ih =>
    by_cases hs : s.status = .busy
    · obtain ⟨t, hst⟩ := step_answers_of_busy hi hs
      rw [engineMoves_succ k hs hst]
      exact ih (stepKeepsInvariant s t hi hst)
    · exact ⟨s, engineMoves_of_not_busy hs _⟩

end Sys2Proof.Machine
end

section
/-! PROOFS. The outcome of a command depends on its operands alone (spec 20_memory R65b, 70_reset_and_hazards R288): the two
machines of O42 run as one machine whose `BUF` holds the datagram and nothing else. -/

namespace Sys2Proof.Machine

/-- The `BUF` that holds the datagram and nothing else. -/
def datagramBuf (s : State) : Memory := bufLoad [] 0 s.datagram

theorem datagram_length (s : State) : s.datagram.length = s.len.toNat := bufBytes_length ..

section Datagram

variable {s : State} (hlen : s.len.toNat ≤ 128)
include hlen

theorem datagramBuf_wf : Memory.bufWf (datagramBuf s) = true :=
  bufLoad_wf bufWf_nil (by simpa [datagram_length] using hlen)

theorem sameDatagram_datagramBuf : SameDatagram s (s.withBuf (datagramBuf s)) := by
  refine ⟨rfl, fun a ha => ?_⟩
  have hload := bufRead_bufLoad bufWf_nil (a := 0) (bs := s.datagram) (by simpa [datagram_length] using hlen) a
  rw [datagram_length, if_pos ⟨Nat.zero_le a, by omega⟩] at hload
  refine hload.trans ?_
  simp [State.datagram, bufBytes, ha]

end Datagram

/-! ## Two machines under one command -/

/-- The command that two machines are given ends in both, with the same results. -/
def SameOutcome (s1 s2 : State) : Prop :=
  ∃ u1 t1 u2 t2, step s1 = .next u1 ∧ runCommand u1 = .next t1 ∧ step s2 = .next u2 ∧ runCommand u2 = .next t2 ∧
    SameResults t1 t2

/-- A command that ends at its START has no engine moves to run. -/
theorem sameOutcome_of_step {s1 s2 t1 t2 : State} (hstep1 : step s1 = .next t1) (hstep2 : step s2 = .next t2)
    (hend : t1.status ≠ .busy) (hres : SameResults t1 t2) : SameOutcome s1 s2 := by
  have hend2 : t2.status ≠ .busy := hres.1.symm ▸ hend
  exact ⟨t1, t1, t2, t2, hstep1, engineMoves_of_not_busy hend _, hstep2, engineMoves_of_not_busy hend2 _, hres⟩

/-- The step of an accepted START is the command's own part after the START action (R210). -/
theorem step_of_accepted {s : State} {i : Instr} {body : State → Outcome} (hs : s.status ≠ .busy)
    (hlen : s.len.toNat ≤ 128) (hi : decodeCmd s.cmd = i) (hbody : exec i s = onStart s body) :
    step s = body (startAction s) := by
  rw [step_of_not_busy hs, startEvent_eq, hi, hbody, onStart_accepted hs hlen]

theorem decodeCmd_ne_nop : ∀ {c : BitVec 2}, c ≠ 0b00 → decodeCmd c ≠ .nop := by decide

/-- A `PKT.DEC` ends in the same state, but for `BUF`, whatever `BUF` holds the datagram: it runs as with the `BUF` that
holds nothing else, where the invariant keeps it from stopping. -/
theorem runCommand_pktDecStart {s : State} (hlen : s.len.toNat ≤ 128) :
    ∃ t : State, ∀ m, SameDatagram s (s.withBuf m) →
      runCommand (((startAction s).setPc .chk 0 0).withBuf m) = .next (t.withBuf m) := by
  obtain ⟨t, ht⟩ := engineMoves_answers
    (inv_pktDecStart (s := s.withBuf (datagramBuf s)) (datagramBuf_wf hlen) hlen) maxSteps
  refine ⟨t, fun m hm => ?_⟩
  have hsame : SameDatagram (s.withBuf (datagramBuf s)) (s.withBuf m) := (sameDatagram_datagramBuf hlen).symm.trans hm
  have hrun := engineMoves_withBuf (s := (startAction (s.withBuf (datagramBuf s))).setPc .chk 0 0) (m := m) hsame
    maxSteps
  rw [ht] at hrun
  exact hrun

section Operands

variable {s1 s2 : State} (hop : SameOperands s1 s2)
include hop

theorem SameOperands.sameDatagram_withBuf : SameDatagram s1 (s1.withBuf s2.buf) := ⟨rfl, hop.sameDatagram.2⟩

/-- The START of `PKT.DEC` overwrites every register but the operands (R210, R248). -/
theorem SameOperands.pktDecStart_eq :
    (startAction s2).setPc .chk 0 0 = ((startAction s1).setPc .chk 0 0).withBuf s2.buf := by
  obtain ⟨hlen, hcmd, hoff, hsec, hfrac, -⟩ := hop
  simp [startAction, clearFlags, State.setPc, State.withBuf, hlen, hcmd, hoff, hsec, hfrac]

variable (hs1 : s1.status ≠ .busy) (hs2 : s2.status ≠ .busy) (hlen : s1.len.toNat ≤ 128)
include hs1 hs2 hlen

/-- Both machines take the START of the one command. -/
theorem SameOperands.steps {i : Instr} {body : State → Outcome} (hi : decodeCmd s1.cmd = i)
    (hbody : ∀ s, exec i s = onStart s body) :
    step s1 = body (startAction s1) ∧ step s2 = body (startAction s2) := by
  obtain ⟨hlen2, hcmd, -⟩ := hop
  exact ⟨step_of_accepted hs1 hlen hi (hbody s1), step_of_accepted hs2 (hlen2 ▸ hlen) (hcmd ▸ hi) (hbody s2)⟩

theorem pktDec_sameOutcome (hi : decodeCmd s1.cmd = .pktDec) : SameOutcome s1 s2 := by
  obtain ⟨hstep1, hstep2⟩ := hop.steps hs1 hs2 hlen hi (body := fun s => .next (s.setPc .chk 0 0)) fun _ => rfl
  obtain ⟨t, ht⟩ := runCommand_pktDecStart hlen
  have hrun1 := ht s1.buf ⟨rfl, fun _ _ => rfl⟩
  have hrun2 := ht s2.buf hop.sameDatagram_withBuf
  rw [← hop.pktDecStart_eq] at hrun2
  exact ⟨_, _, _, _, hstep1, hrun1, hstep2, hrun2,
    rfl, rfl, rfl, rfl, rfl, rfl, rfl, rfl, rfl, rfl, rfl, rfl, fun _ => rfl⟩

theorem tsDec_sameOutcome (hi : decodeCmd s1.cmd = .tsDec) : SameOutcome s1 s2 := by
  obtain ⟨hstep1, hstep2⟩ := hop.steps hs1 hs2 hlen hi (body := tsDecAction) fun _ => rfl
  have hsame : SameDatagram (startAction s1) (startAction s2) := hop.sameDatagram
  obtain ⟨-, -, hoff, -⟩ := hop
  rw [tsDecAction, startAction_off] at hstep1 hstep2
  rw [hsame.tsDecode_eq, hoff] at hstep2
  cases hread : tsDecode (startAction s1) s1.off.toNat with
  | val ts =>
    rw [hread] at hstep1 hstep2
    exact sameOutcome_of_step hstep1 hstep2 Status.noConfusion
      ⟨rfl, rfl, rfl, rfl, rfl, rfl, rfl, rfl, rfl, rfl, rfl, rfl, fun _ => rfl⟩
  | raised e =>
    rw [hread] at hstep1 hstep2
    exact sameOutcome_of_step hstep1 hstep2 Status.noConfusion
      ⟨rfl, rfl, rfl, rfl, rfl, rfl, rfl, rfl, rfl, rfl, rfl, rfl, fun _ => rfl⟩
  | stop f => exact absurd hread (tsDecode_noStop hlen _ f)

theorem tsEnc_sameOutcome (hi : decodeCmd s1.cmd = .tsEnc) : SameOutcome s1 s2 := by
  obtain ⟨hstep1, hstep2⟩ := hop.steps hs1 hs2 hlen hi (body := tsEncAction) fun _ => rfl
  obtain ⟨-, -, -, hsec, hfrac, -⟩ := hop
  refine sameOutcome_of_step hstep1 hstep2 Status.noConfusion
    ⟨rfl, rfl, rfl, rfl, rfl, rfl, rfl, rfl, rfl, rfl, rfl, rfl, fun a => ?_⟩
  simp [completeOk, hsec, hfrac]

end Operands

/-- Settles O42, command by command: what the START leaves of an earlier result no later part reads, and the reads stay
below `LEN`. -/
theorem outcomeDependsOnOperandsOnly : Obligations.OutcomeDependsOnOperandsOnly := by
  intro s1 s2 hop hcmd hs1 hs2 hlen
  rcases decodeCmd_cases s1.cmd with hi | hi | hi | hi
  · exact absurd hi (decodeCmd_ne_nop hcmd)
  · exact pktDec_sameOutcome hop hs1 hs2 hlen hi
  · exact tsDec_sameOutcome hop hs1 hs2 hlen hi
  · exact tsEnc_sameOutcome hop hs1 hs2 hlen hi

end Sys2Proof.Machine
end

section
/-! PROOFS. The codes of spec 30_encoding: which row a selector decodes to (R105, R110, R111), the mode enumeration (R98) and
byte 0 (R91). -/

namespace Sys2Proof.Machine

/-- Settles O2: each selector is a closed word that the decoder evaluates. -/
theorem selectorsDecodeToTheirRows : Obligations.SelectorsDecodeToTheirRows := by
  exact ⟨rfl, rfl, rfl, rfl, rfl, rfl, rfl, rfl, rfl, rfl, rfl, rfl⟩

/-! ## Byte 0 -/

theorem b0Leap_toNat (b : Byte) : (b0Leap b).toNat = b.toNat / 64 := by
  have hb : b.toNat < 256 := b.isLt
  rw [b0Leap, BitVec.extractLsb'_toNat, Nat.shiftRight_eq_div_pow]
  omega

theorem b0Version_toNat (b : Byte) : (b0Version b).toNat = b.toNat / 8 % 8 := by
  rw [b0Version, BitVec.extractLsb'_toNat, Nat.shiftRight_eq_div_pow]

theorem b0Mode_toNat (b : Byte) : (b0Mode b).toNat = b.toNat % 8 := by
  rw [b0Mode, BitVec.extractLsb'_toNat, Nat.shiftRight_zero]

/-- The three fields fill the byte, so packing them loses no bit (R91). -/
theorem b0Byte_toNat (leap : BitVec 2) (version mode : BitVec 3) :
    (b0Byte leap version mode).toNat = leap.toNat * 64 + version.toNat * 8 + mode.toNat := by
  have hleap : leap.toNat < 4 := leap.isLt
  have hversion : version.toNat < 8 := version.isLt
  have hmode : mode.toNat < 8 := mode.isLt
  rw [b0Byte, BitVec.toNat_ofNat]
  omega

section PackedByte

variable (leap : BitVec 2) (version mode : BitVec 3)

theorem b0Leap_b0Byte : b0Leap (b0Byte leap version mode) = leap := by
  apply BitVec.eq_of_toNat_eq
  have hversion : version.toNat < 8 := version.isLt
  have hmode : mode.toNat < 8 := mode.isLt
  rw [b0Leap_toNat, b0Byte_toNat]
  omega

theorem b0Version_b0Byte : b0Version (b0Byte leap version mode) = version := by
  apply BitVec.eq_of_toNat_eq
  have hversion : version.toNat < 8 := version.isLt
  have hmode : mode.toNat < 8 := mode.isLt
  rw [b0Version_toNat, b0Byte_toNat]
  omega

theorem b0Mode_b0Byte : b0Mode (b0Byte leap version mode) = mode := by
  apply BitVec.eq_of_toNat_eq
  have hmode : mode.toNat < 8 := mode.isLt
  rw [b0Mode_toNat, b0Byte_toNat]
  omega

end PackedByte

/-- Settles O4: the fields of a byte are its quotients and remainders by 64 and 8, and a packed byte gives them back. -/
theorem byte0IsLeapVersionMode : Obligations.Byte0IsLeapVersionMode := by
  refine ⟨fun b => ?_, fun b => ⟨b0Leap_toNat b, b0Version_toNat b, b0Mode_toNat b⟩,
    fun l v m => ⟨b0Leap_b0Byte l v m, b0Version_b0Byte l v m, b0Mode_b0Byte l v m⟩⟩
  rw [b0Leap_toNat, b0Version_toNat, b0Mode_toNat]
  omega

/-! ## The mode enumeration -/

theorem modeBits_modeVariant : ∀ m : BitVec 3, modeBits (modeVariant m) = m := by decide

theorem modeVariant_modeBits (v : ModeVariant) : modeVariant (modeBits v) = v := by
  cases v <;> rfl

/-- A number names a variant exactly when it is that variant's number (R98). -/
theorem modeVariant_eq_iff {m : BitVec 3} {v : ModeVariant} : modeVariant m = v ↔ m = modeBits v := by
  constructor
  · rintro rfl
    exact (modeBits_modeVariant m).symm
  · rintro rfl
    exact modeVariant_modeBits v

theorem modeRow_injective : Function.Injective modeRow := by
  intro v w h
  cases v <;> cases w <;> cases h <;> rfl

/-- The mask 0x07 takes the mode out of byte 0 (R91, R98). -/
theorem and_seven_eq_b0Mode (b : Byte) : b.toNat &&& 0x07 = (b0Mode b).toNat := by
  rw [b0Mode_toNat]
  exact Nat.and_two_pow_sub_one_eq_mod b.toNat 3

/-- Byte 0 selects the row of a variant exactly when its mode bits are the variant's number. -/
theorem decode_modeByte_eq_modeRow {b : Byte} {v : ModeVariant} :
    decode (.modeByte b) = .ok (modeRow v) ↔ b0Mode b = modeBits v := by
  rw [← modeVariant_eq_iff, ← modeRow_injective.eq_iff]
  exact ⟨Except.ok.inj, congrArg Except.ok⟩

/-- Settles O3: the two mappings are inverse to each other, and the mask 0x07 is the mode field. -/
theorem modeEnumerationTotalAndOneToOne : Obligations.ModeEnumerationTotalAndOneToOne := by
  refine ⟨modeBits_modeVariant, modeVariant_modeBits, rfl, fun b v => ?_⟩
  rw [decode_modeByte_eq_modeRow, and_seven_eq_b0Mode, BitVec.toNat_inj]

/-- Settles O27, row by row: the meaning of each of the eight rows answers the state it is given. -/
theorem modeRowsChangeNothing : Obligations.ModeRowsChangeNothing := by
  intro s v
  cases v <;> rfl

end Sys2Proof.Machine
end

section
/-! PROOFS. Decode of encode (spec 30_encoding R90 to R97, R106, 43_sequencer_commands R218): the big-endian bytes of a field
are read back as the field, the listing puts each field where `pkt_decode` reads it, and the loop over the extension fields
finds those that were written. -/

namespace Sys2Proof.Machine

/-! ## Big-endian words -/

@[simp] theorem beBytes_length (n v : Nat) : (beBytes n v).length = n := by
  simp [beBytes]

/-- The last of the bytes is the lowest one; those before it spell the rest of the value (R62). -/
theorem beBytes_succ (n v : Nat) : beBytes (n + 1) v = beBytes n (v / 256) ++ [BitVec.ofNat 8 v] := by
  have hbyte : ∀ k ∈ List.range n, beByte (n + 1) v k = beByte n (v / 256) k := by
    intro k hk
    have hdist : 8 * (n + 1 - 1 - k) = 8 + 8 * (n - 1 - k) := by have := List.mem_range.mp hk; omega
    rw [beByte, beByte, hdist, Nat.shiftRight_add, Nat.shiftRight_eq_div_pow v 8]
  rw [beBytes, List.range_succ, List.map_append, List.map_congr_left hbyte]
  simp [beBytes, beByte]

/-- The bytes spell the value, as far as they are wide (R62, R70). -/
theorem beNat_beBytes (n v : Nat) : beNat (beBytes n v) = v % 256 ^ n := by
  induction n generalizing v with
  | zero => simp [beBytes, beNat, Nat.mod_one]
  | succ n ih =>
    rw [beBytes_succ, beNat_concat, ih, BitVec.toNat_ofNat, pow_succ' 256 n, Nat.mod_mul]
    omega

/-- A word is read back from its bytes. -/
theorem ofNat_beNat_beBytes {n : Nat} (w : BitVec (8 * n)) : BitVec.ofNat (8 * n) (beNat (beBytes n w.toNat)) = w := by
  have hw : w.toNat < 256 ^ n := by simpa [pow_mul] using w.isLt
  rw [beNat_beBytes, Nat.mod_eq_of_lt hw, BitVec.ofNat_toNat, BitVec.setWidth_eq]

/-! ## Slices of a byte string -/

theorem slice_of_append {buf pre bs rest : List Byte} {a n : Nat} (h : buf = pre ++ (bs ++ rest))
    (ha : pre.length = a) (hn : bs.length = n) : slice buf a n = bs := by
  subst h ha hn
  simp [slice]

theorem be16_of_slice {buf : List Byte} {a : Nat} {w : Half} (h : slice buf a 2 = beBytes 2 w.toNat) :
    be16 buf a = w := by
  rw [be16, h]
  exact ofNat_beNat_beBytes (n := 2) w

theorem be32_of_slice {buf : List Byte} {a : Nat} {w : Word} (h : slice buf a 4 = beBytes 4 w.toNat) :
    be32 buf a = w := by
  rw [be32, h]
  exact ofNat_beNat_beBytes (n := 4) w

theorem tsAt_of_slice {buf : List Byte} {a : Nat} {t : Timestamp} (hsec : slice buf a 4 = beBytes 4 t.seconds.toNat)
    (hfrac : slice buf (a + 4) 4 = beBytes 4 t.fraction.toNat) : tsAt buf a = t := by
  rw [tsAt, be32_of_slice hsec, be32_of_slice hfrac]

/-! ## The listing of a datagram, section by section (R90) -/

/-- The 48 header bytes of a datagram. -/
def headerBytes (d : Datagram) : List Byte := listingBytes
  [.b0 d.leap d.version d.mode, .stratum d.stratum, .poll d.poll, .prec d.precision,
   .rdelay d.rootDelay, .rdisp d.rootDisp, .refid d.refId,
   .ts d.refTs, .ts d.orgTs, .ts d.rcvTs, .ts d.xmtTs]

/-- The bytes of the extension fields. -/
def extsBytes (fs : List ExtField) : List Byte := listingBytes (fs.map .ext)

/-- The bytes of the optional trailer. -/
def authBytes (a : Option AuthTrailer) : List Byte := listingBytes (a.toList.map .auth)

theorem datagram_bytes_eq (d : Datagram) : d.bytes = headerBytes d ++ (extsBytes d.exts ++ authBytes d.auth) := by
  simp [Datagram.bytes, Datagram.listing, listingBytes, headerBytes, extsBytes, authBytes]

@[simp] theorem headerBytes_length (d : Datagram) : (headerBytes d).length = 48 := rfl

@[simp] theorem bytes_ext_length (f : ExtField) : (Directive.ext f).bytes.length = f.size := by
  rw [Directive.bytes, List.length_append, List.length_append, beBytes_length, beBytes_length, ExtField.size]

theorem extsBytes_cons (f : ExtField) (fs : List ExtField) :
    extsBytes (f :: fs) = (Directive.ext f).bytes ++ extsBytes fs := rfl

@[simp] theorem extsBytes_length (fs : List ExtField) : (extsBytes fs).length = ExtField.sizes fs := by
  induction fs with
  | nil => rfl
  | cons f fs ih => rw [extsBytes_cons, List.length_append, bytes_ext_length, ih, ExtField.sizes]

theorem authBytes_some (a : AuthTrailer) : authBytes (some a) = beBytes 4 a.keyId.toNat ++ a.digest.toList := by
  simp [authBytes, listingBytes, Directive.bytes]

@[simp] theorem authBytes_length (a : Option AuthTrailer) : (authBytes a).length = AuthTrailer.optSize a := by
  cases a with
  | none => rfl
  | some a => simp [authBytes_some, AuthTrailer.optSize]

/-- A trailer is twenty bytes or absent (R97). -/
theorem optSize_eq (a : Option AuthTrailer) : AuthTrailer.optSize a = 0 ∨ AuthTrailer.optSize a = 20 := by
  cases a <;> simp [AuthTrailer.optSize]

theorem datagram_bytes_length (d : Datagram) : d.bytes.length = d.size := by
  simp [datagram_bytes_eq, Datagram.size, Nat.add_assoc]

/-! ## The header -/

theorem headerNeed_of_le {n : Nat} (h : 48 ≤ n) : headerNeed n = none := by
  simp only [headerNeed]
  repeat rw [if_neg (by omega)]

/-- `pkt_decode` finds every header field where the listing put it (R91 to R95). -/
theorem mkPacket_bytes (d : Datagram) (exts : List ExtField) (auth : Option AuthTrailer) :
    mkPacket d.bytes exts auth = { d.packet with ext1 := exts[0]?, ext2 := exts[1]?, auth := auth } := by
  have hb0 : byteAt d.bytes 0 = b0Byte d.leap d.version d.mode := rfl
  have hstratum : byteAt d.bytes 1 = d.stratum := rfl
  have hpoll : byteAt d.bytes 2 = d.poll := rfl
  have hprec : byteAt d.bytes 3 = d.precision := rfl
  have hdelay : be32 d.bytes 4 = d.rootDelay := be32_of_slice rfl
  have hdisp : be32 d.bytes 8 = d.rootDisp := be32_of_slice rfl
  have hrefid : be32 d.bytes 12 = d.refId := be32_of_slice rfl
  have href : tsAt d.bytes 16 = d.refTs := tsAt_of_slice rfl rfl
  have horg : tsAt d.bytes 24 = d.orgTs := tsAt_of_slice rfl rfl
  have hrcv : tsAt d.bytes 32 = d.rcvTs := tsAt_of_slice rfl rfl
  have hxmt : tsAt d.bytes 40 = d.xmtTs := tsAt_of_slice rfl rfl
  simp only [mkPacket, Datagram.packet, hb0, hstratum, hpoll, hprec, hdelay, hdisp, hrefid, href, horg, hrcv, hxmt,
    b0Leap_b0Byte, b0Version_b0Byte, b0Mode_b0Byte]

/-! ## The extension fields -/

/-- The test that ends the loop of R218: nothing left, a trailer, or too little for the two words of a field. -/
theorem parseExts_of_done {buf : List Byte} {k pos : Nat}
    (h : buf.length - pos = 0 ∨ buf.length - pos = 20 ∨ buf.length - pos < 4) : parseExts buf k pos = .ok ([], pos) := by
  cases k with
  | zero => rfl
  | succ k => simp only [parseExts, if_pos h]

/-- One round of the loop of R218 over a field whose length passes its check. -/
theorem parseExts_of_field {buf : List Byte} {k pos q : Nat} {fs : List ExtField} {l : Half}
    (h20 : buf.length - pos ≠ 20) (hl : be16 buf (pos + 2) = l) (hmin : 4 ≤ l.toNat)
    (hmax : l.toNat ≤ buf.length - pos - 4) (hrest : parseExts buf k (pos + 4 + l.toNat) = .ok (fs, q)) :
    parseExts buf (k + 1) pos = .ok (⟨be16 buf pos, l, slice buf (pos + 4) l.toNat⟩ :: fs, q) := by
  subst hl
  simp only [parseExts]
  rw [if_neg (by omega), if_neg (by omega), hrest]

theorem ExtField.wellFormed_iff {f : ExtField} :
    f.wellFormed = true ↔ 4 ≤ f.length.toNat ∧ f.length.toNat = f.value.length := by
  simp [ExtField.wellFormed]

theorem noTrailerLookalike_cons {n : Nat} {f : ExtField} {fs : List ExtField} :
    ExtField.noTrailerLookalike n (f :: fs) = true ↔
      ExtField.sizes (f :: fs) + n ≠ 20 ∧ ExtField.noTrailerLookalike n fs = true := by
  simp [ExtField.noTrailerLookalike]

/-- The two words and the value of a field are read back where its bytes stand (R96). -/
theorem field_of_append {buf pre rest : List Byte} {pos : Nat} {f : ExtField} (hf : f.length.toNat = f.value.length)
    (hbuf : buf = pre ++ ((Directive.ext f).bytes ++ rest)) (hpos : pre.length = pos) :
    be16 buf pos = f.type ∧ be16 buf (pos + 2) = f.length ∧ slice buf (pos + 4) f.length.toNat = f.value := by
  simp only [Directive.bytes, List.append_assoc] at hbuf
  refine ⟨be16_of_slice (slice_of_append hbuf hpos (beBytes_length ..)), be16_of_slice ?_, ?_⟩
  · exact slice_of_append (pre := pre ++ beBytes 2 f.type.toNat) (by rw [hbuf, List.append_assoc]) (by simp [hpos])
      (beBytes_length ..)
  · exact slice_of_append (pre := pre ++ (beBytes 2 f.type.toNat ++ beBytes 2 f.length.toNat))
      (by rw [hbuf, List.append_assoc, List.append_assoc]) (by simp [hpos]) hf.symm

/-- The loop of R218 over well-formed fields reads them back one by one: each begins where the one before ended, and R187
keeps what is left from being taken for a trailer. -/
theorem parseExts_of_append {fs : List ExtField} {k pos : Nat} {a : Option AuthTrailer} {buf pre : List Byte}
    (hbuf : buf = pre ++ (extsBytes fs ++ authBytes a)) (hpos : pre.length = pos) (hk : fs.length ≤ k)
    (hwf : ∀ f ∈ fs, f.wellFormed = true)
    (hlook : ExtField.noTrailerLookalike (AuthTrailer.optSize a) fs = true) :
    parseExts buf k pos = .ok (fs, pos + ExtField.sizes fs) := by
  have hlen : buf.length - pos = ExtField.sizes fs + AuthTrailer.optSize a := by simp [hbuf, ← hpos]
  induction fs generalizing k pre pos with
  | nil =>
    have := optSize_eq a
    exact parseExts_of_done (by rw [hlen, ExtField.sizes]; omega)
  | cons f fs ih =>
    obtain ⟨k, rfl⟩ := Nat.exists_eq_succ_of_ne_zero (Nat.ne_zero_of_lt hk)
    obtain ⟨hmin, hcount⟩ := ExtField.wellFormed_iff.mp (hwf f List.mem_cons_self)
    obtain ⟨hnot20, hlook⟩ := noTrailerLookalike_cons.mp hlook
    have hsize : ExtField.sizes (f :: fs) = 4 + f.length.toNat + ExtField.sizes fs := by
      rw [ExtField.sizes, ExtField.size, hcount]
    rw [extsBytes_cons, List.append_assoc] at hbuf
    obtain ⟨htype, hlength, hvalue⟩ := field_of_append hcount hbuf hpos
    have hrest : parseExts buf k (pos + 4 + f.length.toNat) = .ok (fs, pos + 4 + f.length.toNat + ExtField.sizes fs) :=
      ih (pre := pre ++ (Directive.ext f).bytes) (by rw [hbuf, List.append_assoc])
        (by simp [hpos, hcount, ExtField.size, Nat.add_assoc]) (Nat.le_of_succ_le_succ hk)
        (fun g hg => hwf g (List.mem_cons_of_mem f hg)) hlook (by omega)
    rw [parseExts_of_field (by omega) hlength hmin (by omega) hrest, htype, hvalue, hsize]
    simp only [Nat.add_assoc]

/-! ## The trailer and the whole datagram -/

/-- The last twenty bytes are read back as the trailer, and no bytes as none (R97). -/
theorem parseAuth_of_append {a : Option AuthTrailer} {buf pre : List Byte} {pos : Nat}
    (hbuf : buf = pre ++ authBytes a) (hpos : pre.length = pos) : parseAuth buf pos = a := by
  have hlen : buf.length - pos = AuthTrailer.optSize a := by simp [hbuf, ← hpos]
  cases a with
  | none => exact if_neg (by rw [hlen]; decide)
  | some a =>
    rw [authBytes_some] at hbuf
    have hkey : be32 buf pos = a.keyId := be32_of_slice (slice_of_append hbuf hpos (beBytes_length ..))
    have hdigest : ∀ i : Fin 16, byteAt buf (pos + 4 + i.val) = a.digest[i] := by
      intro i
      rw [byteAt, hbuf, ← hpos, ← List.append_assoc]
      simp [List.getElem?_append_right, Nat.add_assoc]
    simp [parseAuth, hlen, AuthTrailer.optSize, hkey, hdigest]

theorem Datagram.wellFormed_iff {d : Datagram} :
    d.wellFormed = true ↔ d.exts.length ≤ 2 ∧ (∀ f ∈ d.exts, f.wellFormed = true) ∧ d.size ≤ 128 ∧
      ExtField.noTrailerLookalike (AuthTrailer.optSize d.auth) d.exts = true := by
  simp [Datagram.wellFormed, and_assoc]

/-- `pkt_decode` of at least 48 bytes whose loop ends with nothing or a trailer left. -/
theorem pktDecode_of_exts {buf : List Byte} {exts : List ExtField} {pos : Nat} (hlen : 48 ≤ buf.length)
    (hexts : parseExts buf 2 48 = .ok (exts, pos)) (hrem : buf.length - pos = 0 ∨ buf.length - pos = 20) :
    pktDecode buf = .ok (mkPacket buf exts (parseAuth buf pos)) := by
  simp only [pktDecode, headerNeed_of_le hlen, hexts, if_pos hrem]

/-- Settles O9: the header fields, the loop over the extension fields, the trailer. -/
theorem encodedDatagramsDecodeBack : Obligations.EncodedDatagramsDecodeBack := by
  intro d hwf
  have hlen := datagram_bytes_length d
  refine ⟨hlen, ?_⟩
  obtain ⟨hcount, hexts, -, hlook⟩ := Datagram.wellFormed_iff.mp hwf
  have hloop : parseExts d.bytes 2 48 = .ok (d.exts, 48 + ExtField.sizes d.exts) :=
    parseExts_of_append (datagram_bytes_eq d) (headerBytes_length d) hcount hexts hlook
  have hauth : parseAuth d.bytes (48 + ExtField.sizes d.exts) = d.auth :=
    parseAuth_of_append (pre := headerBytes d ++ extsBytes d.exts) (by rw [datagram_bytes_eq, List.append_assoc])
      (by simp)
  have hsize : d.bytes.length = 48 + ExtField.sizes d.exts + AuthTrailer.optSize d.auth := hlen
  have := optSize_eq d.auth
  rw [pktDecode_of_exts (by omega) hloop (by omega), hauth, mkPacket_bytes]
  rfl

end Sys2Proof.Machine
end

section
/-! PROOFS. The tail of a `PKT.DEC` against `pkt_decode` (spec 42_extension_auth_parser R181 to R185, 43_sequencer_commands
R218): with the header read, the engine goes through the extension fields and the trailer as the loop of R218 does, and ends
with the same outcome. -/

namespace Sys2Proof.Machine

/-! ## The datagram as the steps and as `pkt_decode` read it -/

section Reads

variable {s : State}

theorem slice_datagram {a n : Nat} (h : a + n ≤ s.len.toNat) : slice s.datagram a n = bufBytes s.buf a n := by
  apply List.ext_getElem
  · simp [slice, datagram_length]
    omega
  · intro i _ _
    simp [slice, State.datagram, bufBytes]

theorem byteAt_datagram {a : Nat} (h : a < s.len.toNat) : byteAt s.datagram a = bufRead s.buf a := by
  simp [byteAt, State.datagram, bufBytes, h]

theorem readU8_datagram {a : Nat} (h : a + 1 ≤ s.len.toNat) (h' : a + 1 ≤ 128) :
    readU8 s a = .val (byteAt s.datagram a) := by
  rw [readU8_val h h', byteAt_datagram h]

theorem readU16_datagram {a : Nat} (h : a + 2 ≤ s.len.toNat) (h' : a + 2 ≤ 128) :
    readU16 s a = .val (be16 s.datagram a) := by
  rw [readU16_val h h', be16, slice_datagram h]

theorem readU32_datagram {a : Nat} (h : a + 4 ≤ s.len.toNat) (h' : a + 4 ≤ 128) :
    readU32 s a = .val (be32 s.datagram a) := by
  rw [readU32_val h h', be32, slice_datagram h]

theorem readDigest_datagram {a : Nat} (h : a + 16 ≤ s.len.toNat) (h' : a + 16 ≤ 128) :
    readDigest s a = .val (Vector.ofFn fun i => byteAt s.datagram (a + i.val)) := by
  have hbytes : ∀ i : Fin 16, byteAt s.datagram (a + i.val) = bufRead s.buf (a + i.val) :=
    fun i => byteAt_datagram (by omega)
  rw [readDigest_val h h']
  simp only [hbytes]

theorem tsDecode_datagram {a : Nat} (h : a + 8 ≤ s.len.toNat) (h' : a + 8 ≤ 128) :
    tsDecode s a = .val (tsAt s.datagram a) := by
  rw [tsDecode_val h h', tsAt, be32, be32, slice_datagram (by omega), slice_datagram (by omega), bufTs]

end Reads

/-! ## Runs that end with a given outcome -/

/-- The engine ends within `k` moves, with the outcome `r`. -/
def EndsWith (k : Nat) (s : State) (r : Except DecodeError Packet) : Prop :=
  ∃ t, engineMoves k s = .next t ∧ t.result = some r

/-- The operands of an error fit the 16-bit error registers. -/
def DecodeError.Fits : DecodeError → Prop
  | .truncated need have_ => need < 65536 ∧ have_ < 65536
  | .malformedExtension => True
  | .trailingGarbage n => n < 65536

theorem result_raiseError {e : DecodeError} (he : e.Fits) (s : State) : (raiseError e s).result = some (.error e) := by
  cases e with
  | truncated need have_ =>
    obtain ⟨hneed, hhave⟩ := he
    have hneed : (BitVec.ofNat 16 need).toNat = need := by rw [BitVec.toNat_ofNat]; omega
    have hhave : (BitVec.ofNat 16 have_).toNat = have_ := by rw [BitVec.toNat_ofNat]; omega
    show some (Except.error (DecodeError.truncated _ _)) = _
    rw [hneed, hhave]
  | malformedExtension => rfl
  | trailingGarbage n =>
    have hn : (BitVec.ofNat 16 n).toNat = n := by rw [BitVec.toNat_ofNat]; exact Nat.mod_eq_of_lt he
    show some (Except.error (DecodeError.trailingGarbage _)) = _
    rw [hn]

section Step

variable {α : Type} {k : Nat} {s : State} {i : Instr} {x : Eff α} {f : α → State} {r : Except DecodeError Packet}
  (hs : s.status = .busy) (hd : decodePhase s.pc.phase = .ok i) (hexec : exec i s = x.finish s f)
include hs hd hexec

/-- A step whose body comes to a value leaves the outcome to the moves after it. -/
theorem EndsWith.of_val {a : α} (hx : x = .val a) (h : EndsWith k (f a) r) : EndsWith (k + 1) s r := by
  obtain ⟨t, hrun, hres⟩ := h
  refine ⟨t, ?_, hres⟩
  rw [engineMoves_succ (t := f a) k hs (by rw [step_of_busy hs hd, hexec, hx, Eff.finish_val]), hrun]

/-- A step whose body raises an error ends the command with it (R214, R245). -/
theorem EndsWith.of_raised {e : DecodeError} (hx : x = .raised e) (he : e.Fits) : EndsWith (k + 1) s (.error e) := by
  refine ⟨raiseError e s, ?_, result_raiseError he s⟩
  rw [engineMoves_succ (t := raiseError e s) k hs (by rw [step_of_busy hs hd, hexec, hx, Eff.finish_raised]),
    engineMoves_of_not_busy (s := raiseError e s) Status.noConfusion]

end Step

/-- A command that is over ends with its packet. -/
theorem EndsWith.of_packet {k : Nat} {s : State} {P : Packet} (hs : s.status = .ok) (hP : s.packet = some P) :
    EndsWith k s (.ok P) := by
  refine ⟨s, engineMoves_of_not_busy (by simp [hs]) k, ?_⟩
  simp [State.result, hs, hP]

/-! ## What has been parsed -/

/-- The header registers alone: the descriptors and the trailer blanked. -/
def PacketRegs.header (p : PacketRegs) : PacketRegs :=
  { p with ext1Type := none, ext1Len := none, ext1Off := none, ext2Type := none, ext2Len := none, ext2Off := none
           keyId := none, digest := none }

/-- The packet registers after the first `rank` header steps (R152 to R158, R135 to R138), read off a byte string: each is
written by the step of its rank, and by no other (R161). -/
def headerRegs (buf : List Byte) (rank : Nat) : PacketRegs :=
  { PacketRegs.novalue with
    leap := if 1 < rank then some (b0Leap (byteAt buf 0)) else none
    version := if 1 < rank then some (b0Version (byteAt buf 0)) else none
    mode := if 1 < rank then some (b0Mode (byteAt buf 0)) else none
    stratum := if 2 < rank then some (byteAt buf 1) else none
    poll := if 3 < rank then some (byteAt buf 2) else none
    precision := if 4 < rank then some (byteAt buf 3) else none
    rootDelay := if 5 < rank then some (be32 buf 4) else none
    rootDisp := if 6 < rank then some (be32 buf 8) else none
    refId := if 7 < rank then some (be32 buf 12) else none
    refTsSec := if 8 < rank then some (tsAt buf 16).seconds else none
    refTsFrac := if 8 < rank then some (tsAt buf 16).fraction else none
    orgTsSec := if 9 < rank then some (tsAt buf 24).seconds else none
    orgTsFrac := if 9 < rank then some (tsAt buf 24).fraction else none
    rcvTsSec := if 10 < rank then some (tsAt buf 32).seconds else none
    rcvTsFrac := if 10 < rank then some (tsAt buf 32).fraction else none
    xmtTsSec := if 11 < rank then some (tsAt buf 40).seconds else none
    xmtTsFrac := if 11 < rank then some (tsAt buf 40).fraction else none }

/-- The header has been read from the datagram, and the sections read so far are the fields `fs` and the trailer `a`. -/
structure Parsed (s : State) (fs : List ExtField) (a : Option AuthTrailer) : Prop where
  header : s.pkt.header = headerRegs s.datagram 12
  ext1 : extOf s.buf s.ext1Valid s.pkt.ext1Type s.pkt.ext1Len s.pkt.ext1Off = some fs[0]?
  ext2 : extOf s.buf s.ext2Valid s.pkt.ext2Type s.pkt.ext2Len s.pkt.ext2Off = some fs[1]?
  auth : authOf s.authValid s.pkt.keyId s.pkt.digest = some a

section Parsed

variable {s : State} {fs : List ExtField} {a : Option AuthTrailer} (h : Parsed s fs a)
include h

/-- The packet read from the registers is the one `pkt_decode` makes of the same sections (R41, R218). -/
theorem Parsed.packet_eq : s.packet = some (mkPacket s.datagram fs a) := by
  have hheader := h.header
  simp only [PacketRegs.header, headerRegs, PacketRegs.mk.injEq] at hheader
  simp [State.packet, hheader, h.ext1, h.ext2, h.auth, tsOf, mkPacket]

/-- The parse position and the temporaries are no part of what has been parsed. -/
theorem Parsed.move (pc : Pc) (xt xl : Option Half) : Parsed { s with pc := pc, xtType := xt, xtLen := xl } fs a :=
  ⟨h.header, h.ext1, h.ext2, h.auth⟩

end Parsed

/-- The descriptor that the count selects adds the next field to those parsed (R183). -/
theorem Parsed.commitExt {s : State} {fs : List ExtField} (h : Parsed s fs none) (hcount : fs.length < 2) {p : Nat}
    {t l : Half} (hfit : p + 4 + l.toNat ≤ s.len.toNat) (hlen : s.len.toNat ≤ 128) :
    ∃ s', commitExt s fs.length t l (BitVec.ofNat 8 (p + 4)) = .val s' ∧
      s'.status = s.status ∧ s'.len = s.len ∧ s'.datagram = s.datagram ∧
      Parsed s' (fs ++ [⟨t, l, slice s.datagram (p + 4) l.toNat⟩]) none := by
  have hoff : (BitVec.ofNat 8 (p + 4)).toNat = p + 4 := by rw [BitVec.toNat_ofNat]; omega
  have hread : extOf s.buf (some true) (some t) (some l) (some (BitVec.ofNat 8 (p + 4)))
      = some (some ⟨t, l, slice s.datagram (p + 4) l.toNat⟩) := by
    rw [extOf, hoff, slice_datagram hfit]
  match fs, h, hcount with
  | [], h, _ =>
    exact ⟨commitExt1 s t l _, commitExt_eq_val.mpr (.inl ⟨rfl, rfl⟩), rfl, rfl, rfl, h.header, hread, h.ext2, h.auth⟩
  | [f], h, _ =>
    exact ⟨commitExt2 s t l _, commitExt_eq_val.mpr (.inr ⟨rfl, rfl⟩), rfl, rfl, rfl, h.header, h.ext1, hread, h.auth⟩

/-! ## The tail steps -/

/-- The engine is in a phase, at a position inside the datagram. -/
structure InPhase (s : State) (ph : Phase) (p : Nat) : Prop where
  busy : s.status = .busy
  phase : s.pc.phase = ph
  pos : s.pc.pos = some (BitVec.ofNat 8 p)
  pos_le : p ≤ s.len.toNat
  len_le : s.len.toNat ≤ 128

section InPhase

variable {s : State} {ph : Phase} {p : Nat} (h : InPhase s ph p)
include h

theorem InPhase.setPhase (ph' : Phase) : InPhase (s.setPhase ph') ph' p := ⟨h.busy, rfl, h.pos, h.pos_le, h.len_le⟩

theorem InPhase.pos_toNat : (BitVec.ofNat 8 p).toNat = p := by
  have := h.pos_le
  have := h.len_le
  rw [BitVec.toNat_ofNat]
  omega

theorem InPhase.readPos_eq : readPos s = .val p := by
  rw [readPos_val h.pos, h.pos_toNat]

theorem InPhase.remaining_eq : remaining s = .val (s.len.toNat - p) := by
  rw [remaining_val h.pos (h.pos_toNat.trans_le h.pos_le), h.pos_toNat]

theorem InPhase.decodePhase_eq {i : Instr} (hd : decodePhase ph = .ok i) : decodePhase s.pc.phase = .ok i := h.phase ▸ hd

end InPhase

theorem readExtcnt_of_le {s : State} {n : Nat} (h : s.pc.extcnt = some (BitVec.ofNat 2 n)) (hn : n ≤ 2) :
    readExtcnt s = .val n := by
  rw [readExtcnt_val h, BitVec.toNat_ofNat, Nat.mod_eq_of_lt (by omega)]

/-- `FIN.CHK` ends the command with the packet parsed, or with the bytes left over (R185). -/
theorem endsWith_fin {s : State} {p k : Nat} {fs : List ExtField} {a : Option AuthTrailer} (h : InPhase s .fin p)
    (hparsed : Parsed s fs a) : EndsWith (k + 1) s
      (if s.len.toNat - p = 0 then .ok (mkPacket s.datagram fs a) else .error (.trailingGarbage (s.len.toNat - p))) := by
  have hd : decodePhase s.pc.phase = .ok .finChk := h.decodePhase_eq rfl
  split_ifs with hrem
  · exact .of_val h.busy hd rfl (by rw [h.remaining_eq, hrem, Eff.bind_val]; rfl) (.of_packet rfl hparsed.packet_eq)
  · have := s.len.isLt
    exact .of_raised h.busy hd rfl (by simp [h.remaining_eq, hrem]) (by show _ < _; omega)

/-- The twenty bytes at a position, read as a trailer (R97). -/
def trailerAt (buf : List Byte) (p : Nat) : AuthTrailer :=
  ⟨be32 buf p, Vector.ofFn fun i => byteAt buf (p + 4 + i.val)⟩

theorem parseAuth_of_twenty {buf : List Byte} {p : Nat} (h : buf.length - p = 20) :
    parseAuth buf p = some (trailerAt buf p) := if_pos h

/-- The state in which `AUTH.LD` leaves the engine: a trailer, its flag, the position after it (R184). -/
def State.withTrailer (s : State) (a : AuthTrailer) (q : BitVec 8) : State :=
  State.setPhasePos (setAuthValid { s with pkt := { s.pkt with keyId := some a.keyId, digest := some a.digest } }) .fin q

/-- `AUTH.LD` takes the last twenty bytes as the trailer (R184), and nothing is left. -/
theorem endsWith_auth {s : State} {p k : Nat} {fs : List ExtField} (h : InPhase s .auth p)
    (hrem : s.len.toNat - p = 20) (hparsed : Parsed s fs none) :
    EndsWith (k + 2) s (.ok (mkPacket s.datagram fs (some (trailerAt s.datagram p)))) := by
  have hle := h.len_le
  refine .of_val (a := (be32 s.datagram p, (trailerAt s.datagram p).digest, BitVec.ofNat 8 (p + 20))) h.busy
    (h.decodePhase_eq rfl) rfl ?_ ?_
  · simp only [Config.keyIdLen, Config.authLen]
    rw [h.readPos_eq, Eff.bind_val, readU32_datagram (by omega) (by omega), Eff.bind_val,
      readDigest_datagram (by omega) (by omega), Eff.bind_val, newPos_val (by omega), Eff.bind_val, trailerAt]
  · have hphase : InPhase (s.withTrailer (trailerAt s.datagram p) (BitVec.ofNat 8 (p + 20))) .fin (p + 20) :=
      ⟨h.busy, rfl, rfl, by show p + 20 ≤ s.len.toNat; omega, h.len_le⟩
    have hfin := endsWith_fin (k := k) hphase ⟨hparsed.header, hparsed.ext1, hparsed.ext2, rfl⟩
    rwa [if_pos (by show s.len.toNat - (p + 20) = 0; omega)] at hfin

/-- `EXT.HDR` reads the two words of a field and checks the length (R182). -/
theorem InPhase.execExtHdr_eq {s : State} {ph : Phase} {p : Nat} (h : InPhase s ph p) (hmin : 4 ≤ s.len.toNat - p) :
    execExtHdr s = ((Eff.check (extLengthOk (be16 s.datagram (p + 2)).toNat (s.len.toNat - p)) .malformedExtension).bind
      fun _ => .val (be16 s.datagram p, be16 s.datagram (p + 2))).finish s
      fun r => State.setPhase { s with xtType := some r.1, xtLen := some r.2 } .extval := by
  have hle := h.len_le
  rw [execExtHdr, h.remaining_eq, Eff.bind_val, h.readPos_eq, Eff.bind_val, readU16_datagram (by omega) (by omega),
    Eff.bind_val, readU16_datagram (by omega) (by omega), Eff.bind_val]

/-! ## The loop over the extension fields -/

/-- The engine is about to look for the next section, with the fields `fs` parsed (R181). -/
structure Scanning (s : State) (fs : List ExtField) (p : Nat) : Prop extends InPhase s .scan p where
  extcnt : s.pc.extcnt = some (BitVec.ofNat 2 fs.length)
  count_le : fs.length ≤ 2
  parsed : Parsed s fs none

/-- What `pkt_decode` makes of the bytes from `p` on, after the fields `fs` (R218). -/
def closeOutcome (buf : List Byte) (fs : List ExtField) (p : Nat) : Except DecodeError Packet :=
  if buf.length - p = 0 ∨ buf.length - p = 20 then .ok (mkPacket buf fs (parseAuth buf p))
  else .error (.trailingGarbage (buf.length - p))

/-- `EXT.VAL` adds the field that the temporaries describe, and the engine looks for the next section after it (R183). -/
theorem endsWith_extVal {s : State} {fs : List ExtField} {p k : Nat} {t l : Half} {r : Except DecodeError Packet}
    (h : InPhase s .extval p) (hcnt : s.pc.extcnt = some (BitVec.ofNat 2 fs.length)) (hcount : fs.length < 2)
    (ht : s.xtType = some t) (hl : s.xtLen = some l) (hfit : p + 4 + l.toNat ≤ s.len.toNat) (hparsed : Parsed s fs none)
    (hnext : ∀ u : State, u.datagram = s.datagram →
      Scanning u (fs ++ [⟨t, l, slice s.datagram (p + 4) l.toNat⟩]) (p + 4 + l.toNat) → EndsWith k u r) :
    EndsWith (k + 1) s r := by
  have hle := h.len_le
  obtain ⟨s', hcommit, hstatus, hlen, hdatagram, hparsed'⟩ := hparsed.commitExt hcount (t := t) hfit hle
  refine .of_val (a := State.setPc { s' with xtType := none, xtLen := none } .scan (BitVec.ofNat 8 (p + 4 + l.toNat))
    (BitVec.ofNat 2 (fs.length + 1))) h.busy (h.decodePhase_eq rfl) rfl ?_ (hnext _ hdatagram ?_)
  · simp only [Config.extHdrLen]
    rw [h.readPos_eq, Eff.bind_val, readExtcnt_of_le hcnt hcount.le, Eff.bind_val, readXtType_eq_val.mpr ht, Eff.bind_val,
      readXtLen_eq_val.mpr hl, Eff.bind_val, newPos_val (hfit.trans hle), Eff.bind_val, hcommit, Eff.bind_val]
  · exact {
      busy := hstatus.trans h.busy
      phase := rfl
      pos := rfl
      pos_le := by show _ ≤ s'.len.toNat; rwa [hlen]
      len_le := by show s'.len.toNat ≤ 128; rwa [hlen]
      extcnt := by rw [List.length_append]; rfl
      count_le := by rw [List.length_append]; exact hcount
      parsed := hparsed'.move .. }

section Scanning

variable {s : State} {fs : List ExtField} {p : Nat} (h : Scanning s fs p)
include h

/-- `EXT.SCAN` moves the phase alone (R181). -/
theorem Scanning.endsWith_scan {k : Nat} {ph : Phase} {r : Except DecodeError Packet}
    (htarget : scanTarget (s.len.toNat - p) fs.length = ph) (hnext : EndsWith k (s.setPhase ph) r) :
    EndsWith (k + 1) s r :=
  .of_val h.busy (h.decodePhase_eq rfl) rfl
    (by rw [h.remaining_eq, Eff.bind_val, readExtcnt_of_le h.extcnt h.count_le, Eff.bind_val, htarget]) hnext

/-- Where no further field begins the engine takes the trailer, if one is left, and ends (R181, R184, R185). -/
theorem Scanning.endsWith_close {k : Nat}
    (hdone : s.len.toNat - p = 0 ∨ s.len.toNat - p = 20 ∨ s.len.toNat - p < 4 ∨ fs.length = 2) :
    EndsWith (k + 3) s (closeOutcome s.datagram fs p) := by
  have hlength := datagram_length s
  by_cases h20 : s.len.toNat - p = 20
  · have htarget : scanTarget (s.len.toNat - p) fs.length = .auth := by simp [scanTarget, h20]
    rw [closeOutcome, hlength, if_pos (.inr h20), parseAuth_of_twenty (hlength ▸ h20)]
    exact h.endsWith_scan htarget (endsWith_auth (h.setPhase .auth) h20 (h.parsed.move ..))
  · have htarget : scanTarget (s.len.toNat - p) fs.length = .fin := by
      simp only [scanTarget, Config.authLen, Config.extMaxCount, Config.extHdrLen, if_neg h20]
      split_ifs
      any_goals rfl
      omega
    have hauth : parseAuth s.datagram p = none := if_neg (hlength ▸ h20)
    simp only [closeOutcome, hlength, h20, or_false, hauth]
    exact h.endsWith_scan htarget (endsWith_fin (h.setPhase .fin) (h.parsed.move ..))

section Field

variable (hcount : fs.length < 2) (hmin : 4 ≤ s.len.toNat - p) (h20 : s.len.toNat - p ≠ 20)
include hcount hmin h20

/-- Where a field begins the engine runs `EXT.HDR` next (R181). -/
theorem Scanning.endsWith_exthdr {k : Nat} {r : Except DecodeError Packet}
    (hnext : EndsWith k (s.setPhase .exthdr) r) : EndsWith (k + 1) s r := by
  refine h.endsWith_scan ?_ hnext
  simp only [scanTarget, Config.authLen, Config.extMaxCount, Config.extHdrLen]
  repeat rw [if_neg (by omega)]

/-- A field with a bad length ends the command (R182). -/
theorem Scanning.endsWith_malformed {k : Nat}
    (hbad : ¬ (4 ≤ (be16 s.datagram (p + 2)).toNat ∧ (be16 s.datagram (p + 2)).toNat ≤ s.len.toNat - p - 4)) :
    EndsWith (k + 2) s (.error .malformedExtension) := by
  refine h.endsWith_exthdr hcount hmin h20 ?_
  have hphase := h.setPhase .exthdr
  have hcheck := Bool.eq_false_iff.mpr (mt extLengthOk_iff.mp hbad)
  exact .of_raised hphase.busy rfl (hphase.execExtHdr_eq hmin)
    (Eff.bind_eq_raised.mpr (.inl (Eff.check_eq_raised.mpr ⟨hcheck, rfl⟩))) trivial

/-- A field with a good length is parsed in three steps: `EXT.SCAN`, `EXT.HDR`, `EXT.VAL` (R181 to R183). -/
theorem Scanning.endsWith_field {k : Nat} {r : Except DecodeError Packet} {l : Half}
    (hl : be16 s.datagram (p + 2) = l) (hok : 4 ≤ l.toNat ∧ l.toNat ≤ s.len.toNat - p - 4)
    (hnext : ∀ u : State, u.datagram = s.datagram →
      Scanning u (fs ++ [⟨be16 s.datagram p, l, slice s.datagram (p + 4) l.toNat⟩]) (p + 4 + l.toNat) → EndsWith k u r) :
    EndsWith (k + 3) s r := by
  subst hl
  have hfit : p + 4 + (be16 s.datagram (p + 2)).toNat ≤ s.len.toNat := by omega
  refine h.endsWith_exthdr hcount hmin h20 ?_
  have hphase := h.setPhase .exthdr
  have hcheck := Eff.check_eq_val (e := .malformedExtension) (u := ()).mpr (extLengthOk_iff.mpr hok)
  refine .of_val hphase.busy rfl (hphase.execExtHdr_eq hmin)
    (Eff.bind_eq_val.mpr ⟨(), hcheck, rfl⟩) ?_
  have hvalue : InPhase (State.setPhase { s.setPhase .exthdr with
      xtType := some (be16 s.datagram p), xtLen := some (be16 s.datagram (p + 2)) } .extval) .extval p :=
    ⟨h.busy, rfl, h.pos, h.pos_le, h.len_le⟩
  exact endsWith_extVal hvalue h.extcnt hcount rfl rfl hfit (h.parsed.move ..) hnext

end Field

end Scanning

/-- What `pkt_decode` makes of the bytes from `p` on, after the fields `fs` and with `k` more allowed (R218). -/
def tailOutcome (buf : List Byte) (fs : List ExtField) (k p : Nat) : Except DecodeError Packet :=
  match parseExts buf k p with
  | .error e => .error e
  | .ok (gs, q) => closeOutcome buf (fs ++ gs) q

theorem tailOutcome_of_done {buf : List Byte} {fs : List ExtField} {k p : Nat}
    (h : k = 0 ∨ buf.length - p = 0 ∨ buf.length - p = 20 ∨ buf.length - p < 4) :
    tailOutcome buf fs k p = closeOutcome buf fs p := by
  have hexts : parseExts buf k p = .ok ([], p) := by
    rcases h with rfl | h
    · rfl
    · exact parseExts_of_done h
  simp only [tailOutcome, hexts, List.append_nil]

section Round

variable {buf : List Byte} {k p : Nat} (fs : List ExtField) {l : Half} (hmin : 4 ≤ buf.length - p)
  (h20 : buf.length - p ≠ 20) (hl : be16 buf (p + 2) = l)
include hmin h20 hl

theorem tailOutcome_of_malformed (hbad : ¬ (4 ≤ l.toNat ∧ l.toNat ≤ buf.length - p - 4)) :
    tailOutcome buf fs (k + 1) p = .error .malformedExtension := by
  subst hl
  have hexts : parseExts buf (k + 1) p = .error .malformedExtension := by
    simp only [parseExts]
    rw [if_neg (by omega), if_pos (by omega)]
  simp only [tailOutcome, hexts]

theorem tailOutcome_of_field (hok : 4 ≤ l.toNat ∧ l.toNat ≤ buf.length - p - 4) :
    tailOutcome buf fs (k + 1) p
      = tailOutcome buf (fs ++ [⟨be16 buf p, l, slice buf (p + 4) l.toNat⟩]) k (p + 4 + l.toNat) := by
  cases hrest : parseExts buf k (p + 4 + l.toNat) with
  | ok r =>
    simp only [tailOutcome, parseExts_of_field h20 hl hok.1 hok.2 hrest, hrest, List.append_assoc, List.singleton_append]
  | error e =>
    subst hl
    have hexts : parseExts buf (k + 1) p = .error e := by
      simp only [parseExts]
      rw [if_neg (by omega), if_neg (by omega), hrest]
    simp only [tailOutcome, hexts, hrest]

end Round

/-- The engine goes through the tail as the loop of R218 does, field by field: three moves for a field, three for the end. -/
theorem Scanning.endsWith_tail {s : State} {fs : List ExtField} {p k : Nat} (h : Scanning s fs p)
    (hk : fs.length + k = 2) : EndsWith (3 * k + 3) s (tailOutcome s.datagram fs k p) := by
  have hlength := datagram_length s
  induction k generalizing s fs p with
  | zero =>
    rw [tailOutcome_of_done (.inl rfl)]
    exact h.endsWith_close (.inr (.inr (.inr hk)))
  | succ k ih =>
    by_cases hdone : s.len.toNat - p = 0 ∨ s.len.toNat - p = 20 ∨ s.len.toNat - p < 4
    · rw [tailOutcome_of_done (.inr (hlength ▸ hdone))]
      exact h.endsWith_close (k := 3 * k + 3) (by omega)
    · generalize hl : be16 s.datagram (p + 2) = l
      by_cases hok : 4 ≤ l.toNat ∧ l.toNat ≤ s.len.toNat - p - 4
      · rw [tailOutcome_of_field fs (by omega) (by omega) hl (hlength ▸ hok)]
        refine h.endsWith_field (k := 3 * k + 3) (by omega) (by omega) (by omega) hl hok fun u hdatagram hu => ?_
        have htail := ih hu (by simp; omega) (datagram_length u)
        rwa [hdatagram] at htail
      · rw [tailOutcome_of_malformed fs (by omega) (by omega) hl (hlength ▸ hok)]
        exact h.endsWith_malformed (k := 3 * k + 4) (by omega) (by omega) (by omega) (hl ▸ hok)

end Sys2Proof.Machine
end

section
/-! PROOFS. A whole `PKT.DEC` against `pkt_decode` (spec 41_header_unpack R151 to R158, 43_sequencer_commands R212 to R218): the
header steps in their order, each with the length check that `pkt_decode` makes at the same place, then the tail. -/

namespace Sys2Proof.Machine

/-! ## The length checks of the header -/

/-- The length checks of the header (R103, R242): the bytes known to be there before the check, and those it asks for. -/
def headerChecks : List (Nat × Nat) := [(0, 12), (12, 16), (16, 24), (24, 32), (32, 40), (40, 48)]

/-- The check that fails first is the one whose bytes were not all received (R218). -/
theorem headerNeed_of_between {n lower need : Nat} (hmem : (lower, need) ∈ headerChecks) (hlower : lower ≤ n)
    (hneed : n < need) : headerNeed n = some need := by
  simp only [headerChecks, List.mem_cons, Prod.mk.injEq, List.not_mem_nil, or_false] at hmem
  rcases hmem with ⟨rfl, rfl⟩ | ⟨rfl, rfl⟩ | ⟨rfl, rfl⟩ | ⟨rfl, rfl⟩ | ⟨rfl, rfl⟩ | ⟨rfl, rfl⟩
  all_goals
    simp only [headerNeed]
    repeat rw [if_neg (by omega)]
    rw [if_pos hneed]

theorem need_le_of_mem_headerChecks : ∀ c ∈ headerChecks, c.2 ≤ 48 := by decide

theorem pktDecode_of_short {buf : List Byte} {need : Nat} (h : headerNeed buf.length = some need) :
    pktDecode buf = .error (.truncated need buf.length) := by
  simp only [pktDecode, h]

theorem pktDecode_of_long {buf : List Byte} (h : 48 ≤ buf.length) : pktDecode buf = tailOutcome buf [] 2 48 := by
  cases hexts : parseExts buf 2 48 with
  | error e => simp only [pktDecode, tailOutcome, headerNeed_of_le h, hexts]
  | ok r => simp only [pktDecode, tailOutcome, closeOutcome, headerNeed_of_le h, hexts, List.nil_append]

/-! ## The header steps -/

section HeaderStep

variable {α : Type} {k : Nat} {s : State} {i : Instr} {x : Eff α} {f : α → State} {lower need : Nat}
  {D : List Byte} (hs : s.status = .busy) (hd : decodePhase s.pc.phase = .ok i) (hD : s.datagram = D)
include hs hd hD

/-- A header step with a length check: short of its bytes it raises the truncation that `pkt_decode` answers (R242). -/
theorem EndsWith.of_checked {a : α} (hexec : exec i s = x.finish s f) (hmem : (lower, need) ∈ headerChecks)
    (hlower : lower ≤ s.len.toNat) (hshort : s.len.toNat < need → x = .raised (.truncated need s.len.toNat))
    (hval : need ≤ s.len.toNat → x = .val a)
    (hnext : need ≤ s.len.toNat → EndsWith k (f a) (pktDecode D)) :
    EndsWith (k + 1) s (pktDecode D) := by
  subst hD
  by_cases h : need ≤ s.len.toNat
  · exact .of_val hs hd hexec (hval h) (hnext h)
  · have hlength := datagram_length s
    have hneed : need ≤ 48 := need_le_of_mem_headerChecks _ hmem
    rw [pktDecode_of_short (hlength ▸ headerNeed_of_between hmem hlower (by omega)), hlength]
    exact .of_raised hs hd hexec (hshort (by omega)) ⟨by omega, by omega⟩

/-- The four timestamp steps: eight bytes from the position on, or the truncation (R131, R135 to R138). -/
theorem EndsWith.of_timestamp {n : Nat} {f : Timestamp × BitVec 8 → State}
    (hexec : exec i s = (tsAtPos s).finish s f) (hpos : s.pc.pos = some (BitVec.ofNat 8 n))
    (hmem : (n, n + 8) ∈ headerChecks) (hlower : n ≤ s.len.toNat) (hle : s.len.toNat ≤ 128)
    (hnext : n + 8 ≤ s.len.toNat → EndsWith k (f (tsAt s.datagram n, BitVec.ofNat 8 (n + 8))) (pktDecode D)) :
    EndsWith (k + 1) s (pktDecode D) := by
  have hn : (BitVec.ofNat 8 n).toNat = n := by rw [BitVec.toNat_ofNat]; omega
  refine .of_checked hs hd hD hexec hmem hlower (fun h => ?_) (fun h => ?_) hnext
  · rw [tsAtPos, readPos_val hpos, hn, Eff.bind_val, tsDecode_raised h, Eff.bind_raised]
  · rw [tsAtPos, readPos_val hpos, hn, Eff.bind_val, tsDecode_datagram h (h.trans hle), Eff.bind_val,
      newPos_val (h.trans hle), Eff.bind_val]

end HeaderStep

/-- The machine on entry to a header phase at position `n`: the steps before it have written their registers (R213). -/
def State.inHeader (s : State) (ph : Phase) (n : Nat) : State :=
  { s with pc := ⟨ph, some (BitVec.ofNat 8 n), some 0⟩, pkt := headerRegs s.datagram (phaseRank ph) }

/-- The header steps, in their order (R213): each reads its field, or the command ends with the truncation. -/
theorem endsWith_header {s : State} {k : Nat} (hs : s.status = .busy) (hle : s.len.toNat ≤ 128)
    (htail : 48 ≤ s.len.toNat → EndsWith k (s.inHeader .scan 48) (pktDecode s.datagram)) :
    EndsWith (k + 12) (s.inHeader .chk 0) (pktDecode s.datagram) := by
  refine .of_checked (lower := 0) (need := 12) (a := ()) hs rfl rfl rfl (by decide) (Nat.zero_le _)
    (fun h => Eff.check_eq_raised.mpr ⟨decide_eq_false (Nat.not_le.mpr h), rfl⟩)
    (fun h => Eff.check_eq_val.mpr (decide_eq_true h))
    fun (h12 : 12 ≤ s.len.toNat) => (?_ : EndsWith _ (s.inHeader .b0 0) _)
  have hbyte : ∀ ph n a, a + 1 ≤ 12 → readU8 (s.inHeader ph n) a = .val (byteAt s.datagram a) :=
    fun ph n a ha => readU8_datagram (s := s.inHeader ph n) (ha.trans h12) (ha.trans (by decide))
  have hword : ∀ ph n a, a + 4 ≤ 12 → readU32 (s.inHeader ph n) a = .val (be32 s.datagram a) :=
    fun ph n a ha => readU32_datagram (s := s.inHeader ph n) (ha.trans h12) (ha.trans (by decide))
  refine .of_val hs rfl rfl (hbyte _ _ 0 (by decide)) (?_ : EndsWith _ (s.inHeader .stratum 1) _)
  refine .of_val hs rfl rfl (hbyte _ _ 1 (by decide)) (?_ : EndsWith _ (s.inHeader .poll 2) _)
  refine .of_val hs rfl rfl (hbyte _ _ 2 (by decide)) (?_ : EndsWith _ (s.inHeader .prec 3) _)
  refine .of_val hs rfl rfl (hbyte _ _ 3 (by decide)) (?_ : EndsWith _ (s.inHeader .rdelay 4) _)
  refine .of_val hs rfl rfl (hword _ _ 4 (by decide)) (?_ : EndsWith _ (s.inHeader .rdisp 8) _)
  refine .of_val hs rfl rfl (hword _ _ 8 (by decide)) (?_ : EndsWith _ (s.inHeader .refid 12) _)
  refine .of_checked (lower := 12) (need := 16) (a := be32 s.datagram 12) hs rfl rfl rfl (by decide) h12
    (fun h => Eff.bind_eq_raised.mpr (.inl (Eff.check_eq_raised.mpr ⟨decide_eq_false (Nat.not_le.mpr h), rfl⟩)))
    (fun h => Eff.bind_eq_val.mpr ⟨(), Eff.check_eq_val.mpr (decide_eq_true h), readU32_datagram h (by decide)⟩)
    fun (h16 : 16 ≤ s.len.toNat) => (?_ : EndsWith _ (s.inHeader .tsref 16) _)
  refine .of_timestamp (n := 16) hs rfl rfl rfl rfl (by decide) h16 hle
    fun (h24 : 24 ≤ s.len.toNat) => (?_ : EndsWith _ (s.inHeader .tsorg 24) _)
  refine .of_timestamp (n := 24) hs rfl rfl rfl rfl (by decide) h24 hle
    fun (h32 : 32 ≤ s.len.toNat) => (?_ : EndsWith _ (s.inHeader .tsrcv 32) _)
  refine .of_timestamp (n := 32) hs rfl rfl rfl rfl (by decide) h32 hle
    fun (h40 : 40 ≤ s.len.toNat) => (?_ : EndsWith _ (s.inHeader .tsxmt 40) _)
  exact .of_timestamp (n := 40) hs rfl rfl rfl rfl (by decide) h40 hle htail

/-- From its START a `PKT.DEC` ends with the outcome of `pkt_decode` (R212 to R218): the header, then the tail. -/
theorem endsWith_pktDecStart {s : State} (hle : s.len.toNat ≤ 128) :
    EndsWith maxSteps ((startAction s).setPc .chk 0 0) (pktDecode s.datagram) := by
  refine endsWith_header (s := startAction s) (k := 9) rfl hle fun h48 => ?_
  have hscan : Scanning ((startAction s).inHeader .scan 48) [] 48 :=
    { busy := rfl, phase := rfl, pos := rfl, pos_le := h48, len_le := hle, extcnt := rfl, count_le := Nat.zero_le _
      parsed := ⟨rfl, rfl, rfl, rfl⟩ }
  rw [pktDecode_of_long ((datagram_length _).symm ▸ h48)]
  exact hscan.endsWith_tail (k := 2) rfl

end Sys2Proof.Machine
end

section
/-! PROOFS. The host submits a datagram (spec 60_exceptions R255, 70_reset_and_hazards R282) and the machine decodes it: the
host's writes load `BUF`, `LEN` and `CMD` over whatever they held, and the `PKT.DEC` that START begins ends with what
`pkt_decode` gives for the bytes written. -/

namespace Sys2Proof.Machine

/-! ## The host's writes -/

theorem hostMove_cons {m : HostMove} {ms : List HostMove} {s t : State} (h : hostMove m s = .next t) :
    hostMoves (m :: ms) s = hostMoves ms t := by
  simp only [hostMoves, h]

theorem hostMoves_append {ms ns : List HostMove} {s t : State} (h : hostMoves ms s = .next t) :
    hostMoves (ms ++ ns) s = hostMoves ns t := by
  induction ms generalizing s with
  | nil =>
    cases h
    rfl
  | cons m ms ih =>
    cases hm : hostMove m s with
    | next u =>
      rw [hostMove_cons hm] at h
      rw [List.cons_append, hostMove_cons hm, ih h]
    | fault f => simp [hostMoves, hm] at h
    | refused r => simp [hostMoves, hm] at h

/-- A machine that is not BUSY takes the bytes one by one (R45, R283). -/
theorem hostMoves_writeBytes {s : State} (hs : s.status ≠ .busy) {a : Nat} {bs : List Byte} (h : a + bs.length ≤ 128) :
    hostMoves (writeBytes a bs) s = .next (s.withBuf (bufLoad s.buf a bs)) := by
  induction bs generalizing s a with
  | nil => rfl
  | cons b bs ih =>
    rw [List.length_cons] at h
    have ha : (BitVec.ofNat 7 a).toNat = a := by rw [BitVec.toNat_ofNat]; omega
    have hwrite : hostMove (.writeBuf (BitVec.ofNat 7 a) b) s = .next (s.withBuf (bufWrite s.buf a b)) :=
      hostWrite_eq_next.mpr ⟨hs, by rw [ha]; rfl⟩
    rw [writeBytes, hostMove_cons hwrite, ih (s := s.withBuf (bufWrite s.buf a b)) hs (by omega)]
    rfl

/-- The machine with a datagram and its length written, and `CMD` at `PKT.DEC`. -/
def State.loaded (s : State) (bytes : List Byte) : State :=
  { s with buf := bufLoad s.buf 0 bytes, len := BitVec.ofNat 8 bytes.length, cmd := 0b01 }

section Submit

variable {s : State} {bytes : List Byte} (hlen : bytes.length ≤ 128)
include hlen

theorem loaded_len : (s.loaded bytes).len.toNat = bytes.length := by
  rw [State.loaded, BitVec.toNat_ofNat]
  omega

/-- What the machine reads as its datagram is what the host wrote, whatever `BUF` held before (R90, R255). -/
theorem datagram_loaded (hbuf : Memory.bufWf s.buf = true) : (s.loaded bytes).datagram = bytes := by
  have hlength : (s.loaded bytes).datagram.length = bytes.length := (datagram_length _).trans (loaded_len hlen)
  refine List.ext_getElem hlength fun i _ hi => ?_
  have hread := bufRead_bufLoad hbuf (a := 0) (bs := bytes) (by omega) i
  rw [if_pos (by omega)] at hread
  simpa [State.datagram, State.loaded, bufBytes, hi] using hread

/-- The moves that submit a datagram are all taken, and the `PKT.DEC` begins (R210, R282). -/
theorem hostMoves_submitMoves (hs : s.status ≠ .busy) :
    hostMoves (submitMoves bytes) s = .next ((startAction (s.loaded bytes)).setPc .chk 0 0) := by
  have hwrites : hostMoves (writeBytes 0 bytes) s = .next (s.withBuf (bufLoad s.buf 0 bytes)) :=
    hostMoves_writeBytes hs (by omega)
  have hregs : hostMoves [.writeLen (BitVec.ofNat 8 bytes.length), .writeCmd 0b01] (s.withBuf (bufLoad s.buf 0 bytes))
      = .next (s.loaded bytes) := by
    simp [hostMoves, hostMove, hostWrite, State.withBuf, State.loaded, hs]
  have hstart : hostMoves [.raiseStart] (s.loaded bytes) = .next ((startAction (s.loaded bytes)).setPc .chk 0 0) :=
    hostMove_cons ((step_of_not_busy (s := s.loaded bytes) hs).symm.trans
      (step_of_accepted (i := .pktDec) (body := fun s' => .next (s'.setPc .chk 0 0)) hs (by rwa [loaded_len hlen])
        rfl rfl))
  rw [submitMoves, hostMoves_append hwrites]
  exact (hostMoves_append (ns := [.raiseStart]) hregs).trans hstart

end Submit

/-! ## The command -/

theorem result_eq_ok {t : State} {P : Packet} (h : t.result = some (.ok P)) : t.status = .ok ∧ t.packet = some P := by
  cases hs : t.status <;> simp [State.result, hs] at h
  exact ⟨rfl, h⟩

/-- Settles O45: the host's moves load the datagram's bytes, the engine ends with what `pkt_decode` gives for them, and that
is the datagram's packet. -/
theorem submittedDatagramIsDecoded : Obligations.SubmittedDatagramIsDecoded := by
  intro d s hwf hbuf hs
  obtain ⟨hlength, hdecode⟩ := encodedDatagramsDecodeBack d hwf
  obtain ⟨-, -, hsize, -⟩ := Datagram.wellFormed_iff.mp hwf
  have hlen : d.bytes.length ≤ 128 := hlength.trans_le hsize
  obtain ⟨t, hrun, hresult⟩ := endsWith_pktDecStart (s := s.loaded d.bytes) (by rwa [loaded_len hlen])
  rw [datagram_loaded hlen hbuf, hdecode] at hresult
  exact ⟨_, t, hostMoves_submitMoves hlen hs, hrun, result_eq_ok hresult⟩

end Sys2Proof.Machine
end

section
/-! PROOFS. The four-byte words of `BUF` (spec 20_memory R62 to R64): the same word seen as a value, as its bits, as the
concatenation of its bytes, and from the bytes it is read back from. -/

namespace Sys2Proof.Machine

/-! ## Bytes of a value and value of bytes -/

/-- Spelling out the value of a byte string gives the string back: the other half of `beNat_beBytes` (R62, R70). -/
theorem beBytes_beNat (bs : List Byte) : beBytes bs.length (beNat bs) = bs := by
  induction bs using List.reverseRecOn with
  | nil => rfl
  | append_singleton bs b ih =>
    have hb : b.toNat < 256 := b.isLt
    have hrest : (beNat bs * 256 + b.toNat) / 256 = beNat bs := by omega
    have hlow : BitVec.ofNat 8 (beNat bs * 256 + b.toNat) = b :=
      BitVec.eq_of_toNat_eq (by rw [BitVec.toNat_ofNat]; omega)
    rw [List.length_append, List.length_singleton, beBytes_succ, beNat_concat, hrest, hlow, ih]

/-- A big-endian word with one more byte is the word of the others with that byte appended (R62). -/
theorem ofNat_beNat_concat (n : Nat) (bs : List Byte) (b : Byte) :
    BitVec.ofNat (n + 8) (beNat (bs ++ [b])) = BitVec.ofNat n (beNat bs) ++ b := by
  refine BitVec.eq_of_getLsbD_eq fun i hi => ?_
  rw [BitVec.getLsbD_ofNat, beNat_concat, testBit_mul_256_add, BitVec.getLsbD_append, BitVec.getLsbD_ofNat]
  split
  · simp [hi]
  · have hhigh : i - 8 < n := by omega
    simp [hi, hhigh]

/-! ## The word at an address -/

/-- The four-byte big-endian word at an address of `BUF`, the value of `readU32` (`readU32_val`). -/
def bufWord (m : Memory) (a : Nat) : Word := BitVec.ofNat 32 (beNat (bufBytes m a 4))

theorem bufTs_eq (m : Memory) (a : Nat) : bufTs m a = ⟨bufWord m a, bufWord m (a + 4)⟩ := rfl

theorem bufWord_toNat (m : Memory) (a : Nat) : (bufWord m a).toNat = beNat (bufBytes m a 4) := by
  have hwidth : beNat (bufBytes m a 4) < 2 ^ 32 := by simpa using beNat_lt (bufBytes m a 4)
  rw [bufWord, BitVec.toNat_ofNat, Nat.mod_eq_of_lt hwidth]

/-- Bits `8j` to `8j + 7` of the word are those of the byte `j` places before its last (R63). -/
theorem bufWord_getLsbD (m : Memory) (a : Nat) {i j : Nat} (hi : i < 8) (hj : j < 4) :
    (bufWord m a).getLsbD (8 * j + i) = (bufRead m (a + 3 - j)).getLsbD i := by
  have hbit : 8 * j + i < 32 := by omega
  rw [bufWord, BitVec.getLsbD_ofNat, bigEndianBitPlacement m a 4 i j hi hj]
  simp [hbit]

theorem bufWord_eq_append (m : Memory) (a : Nat) :
    bufWord m a = bufRead m a ++ bufRead m (a + 1) ++ bufRead m (a + 2) ++ bufRead m (a + 3) := by
  have hfirst : BitVec.ofNat 8 (beNat (bufBytes m a 1)) = bufRead m a := by simp [bufBytes, beNat]
  rw [bufWord, bufBytes_succ, ofNat_beNat_concat 24, bufBytes_succ, ofNat_beNat_concat 16, bufBytes_succ,
    ofNat_beNat_concat 8, hfirst]

/-- The bytes written out from the word are those it was read from (R70 after R64). -/
theorem beByte_bufWord (m : Memory) (a : Nat) {k : Nat} (hk : k < 4) :
    beByte 4 (bufWord m a).toNat k = bufRead m (a + k) := by
  have hbytes : beBytes 4 (bufWord m a).toNat = bufBytes m a 4 := by
    simpa [bufWord_toNat] using beBytes_beNat (bufBytes m a 4)
  simpa [beBytes, bufBytes, hk] using congrArg (·[k]?) hbytes

/-- Where `BUF` holds the bytes of a word, that word is read (R64 after R70). -/
theorem bufWord_of_beByte {m : Memory} {a : Nat} {w : Word} (h : ∀ k < 4, bufRead m (a + k) = beByte 4 w.toNat k) :
    bufWord m a = w := by
  have hbytes : bufBytes m a 4 = beBytes 4 w.toNat := List.map_congr_left fun k hk => h k (List.mem_range.mp hk)
  rw [bufWord, hbytes]
  exact ofNat_beNat_beBytes (n := 4) w

end Sys2Proof.Machine
end

section
/-! PROOFS. The timestamp codec (spec 40_timestamp_codec): the steps of a parse (R135 to R138), the two commands (R132, R133),
and that they undo each other (R134, R140). -/

namespace Sys2Proof.Machine

/-! ## Where the body of a step is known -/

theorem Eff.finish_of_val {α : Type} {x : Eff α} {a : α} (h : x = .val a) (s : State) (k : α → State) :
    x.finish s k = .next (k a) := by
  rw [h, Eff.finish_val]

theorem Eff.finish_of_raised {α : Type} {x : Eff α} {e : DecodeError} (h : x = .raised e) (s : State) (k : α → State) :
    x.finish s k = .next (raiseError e s) := by
  rw [h, Eff.finish_raised]

/-! ## The four steps -/

theorem tsAtPos_raised {s : State} {p : BitVec 8} (hp : s.pc.pos = some p) (h : s.len.toNat < p.toNat + 8) :
    tsAtPos s = .raised (.truncated (p.toNat + 8) s.len.toNat) := by
  rw [tsAtPos, readPos_val hp, Eff.bind_val, tsDecode_raised h, Eff.bind_raised]

theorem tsAtPos_val {s : State} {p : BitVec 8} (hp : s.pc.pos = some p) (h : p.toNat + 8 ≤ s.len.toNat)
    (h' : p.toNat + 8 ≤ 128) : tsAtPos s = .val (bufTs s.buf p.toNat, BitVec.ofNat 8 (p.toNat + 8)) := by
  rw [tsAtPos, readPos_val hp, Eff.bind_val, tsDecode_val h h', Eff.bind_val, newPos_val h', Eff.bind_val]

/-- What the four steps share: where `ts_decode` raises an error, the step takes the error exit (R135 to R138). -/
theorem exec_timestamp_of_raised {i : Instr} {s : State} {e : DecodeError} (hi : i ∈ [Instr.tsRef, .tsOrg, .tsRcv, .tsXmt])
    (h : tsAtPos s = .raised e) : exec i s = .next (raiseError e s) := by
  simp only [List.mem_cons, List.not_mem_nil, or_false] at hi
  rcases hi with rfl | rfl | rfl | rfl <;> exact Eff.finish_of_raised h s _

/-- Settles O15: the pair that `ts_decode` gives at `pc.pos`, bit by bit, in the registers of each step. -/
theorem timestampStepsDecodeAtPos : Obligations.TimestampStepsDecodeAtPos := by
  intro s p hp
  refine ⟨fun hshort i hi => exec_timestamp_of_raised hi (tsAtPos_raised hp hshort), fun hlen hbuf => ?_⟩
  have hval := tsAtPos_val hp hlen hbuf
  refine ⟨bufWord s.buf p.toNat, bufWord s.buf (p.toNat + 4), fun j hj i hi => bufWord_getLsbD _ _ hi hj,
    fun j hj i hi => bufWord_getLsbD _ _ hi hj, ?_, ?_, ?_, ?_⟩ <;> exact Eff.finish_of_val hval s _

/-! ## `TS.DEC` -/

/-- The end of a `TS.DEC` that has decoded a timestamp (R132). -/
def tsDecDone (s : State) (t : Timestamp) : State :=
  completeOk (loseFlags { startAction s with tsdSec := some t.seconds, tsdFrac := some t.fraction })

section Accepted

variable {s : State} (hs : s.status ≠ .busy) (hlen : s.len.toNat ≤ 128)
include hs hlen

/-- The START action changes neither `BUF` nor `LEN` nor `OFF`, so the pair is that of the state before it. -/
theorem exec_tsDec_of_fits (h : s.off.toNat + 8 ≤ s.len.toNat) :
    exec .tsDec s = .next (tsDecDone s (bufTs s.buf s.off.toNat)) := by
  have hread : tsDecode (startAction s) s.off.toNat = .val (bufTs s.buf s.off.toNat) :=
    tsDecode_val (s := startAction s) h (h.trans hlen)
  exact (onStart_accepted hs hlen).trans (Eff.finish_of_val hread _ _)

theorem exec_tsDec_of_short (h : s.len.toNat < s.off.toNat + 8) :
    exec .tsDec s = .next (raiseError (.truncated (s.off.toNat + 8) s.len.toNat) (startAction s)) := by
  have hread : tsDecode (startAction s) s.off.toNat = .raised (.truncated (s.off.toNat + 8) s.len.toNat) :=
    tsDecode_raised (s := startAction s) h
  exact (onStart_accepted hs hlen).trans (Eff.finish_of_raised hread _ _)

end Accepted

/-- Settles O25: the bytes of the pair in order, or the error exit with operands that 16 bits hold. -/
theorem tsDecReadsThePairAtOff : Obligations.TsDecReadsThePairAtOff := by
  intro s hs hlen
  refine ⟨fun hfits => ?_, fun hshort => ?_⟩
  · rw [exec_tsDec_of_fits hs hlen hfits, bufTs_eq, bufWord_eq_append, bufWord_eq_append]
    rfl
  · have hneed : (BitVec.ofNat 16 (s.off.toNat + 8)).toNat = s.off.toNat + 8 := by
      have := s.off.isLt
      rw [BitVec.toNat_ofNat]
      omega
    have hhave : (BitVec.ofNat 16 s.len.toNat).toNat = s.len.toNat := by
      rw [BitVec.toNat_ofNat]
      omega
    exact ⟨_, exec_tsDec_of_short hs hlen hshort, rfl, rfl, ⟨_, _, rfl, rfl, hneed, hhave⟩, rfl, rfl, rfl, rfl, rfl,
      rfl, rfl, rfl, rfl, rfl, fun _ => rfl⟩

/-! ## `TS.ENC` -/

/-- `OUT` after `TS.ENC`: the two `MemWrite`s on the `OUT` that START has emptied (R133, R210). -/
def tsEncOut (t : Timestamp) : Memory := memWrite (memWrite [] 0 4 t.seconds.toNat) 4 4 t.fraction.toNat

theorem outRead_tsEncOut_seconds (t : Timestamp) {k : Nat} (hk : k < 4) :
    outRead (tsEncOut t) k = some (beByte 4 t.seconds.toNat k) := by
  rw [tsEncOut, outRead_memWrite_outside _ _ (.inl hk), ← Nat.zero_add k, outRead_memWrite_inside _ _ hk, Nat.zero_add]

theorem outRead_tsEncOut_fraction (t : Timestamp) {k : Nat} (hk : k < 4) :
    outRead (tsEncOut t) (4 + k) = some (beByte 4 t.fraction.toNat k) :=
  outRead_memWrite_inside _ _ hk

theorem outRead_tsEncOut_past (t : Timestamp) {a : Nat} (ha : 8 ≤ a) : outRead (tsEncOut t) a = none := by
  rw [tsEncOut, outRead_memWrite_outside _ _ (.inr ha), outRead_memWrite_outside _ _ (.inr (by omega))]
  rfl

/-- The end of a `TS.ENC` (R133). -/
def tsEncDone (s : State) : State :=
  completeOk (loseFlags { startAction s with out := tsEncOut ⟨s.tsInSec, s.tsInFrac⟩ })

theorem exec_tsEnc_of_accepted {s : State} (hs : s.status ≠ .busy) (hlen : s.len.toNat ≤ 128) :
    exec .tsEnc s = .next (tsEncDone s) :=
  onStart_accepted hs hlen

/-- A byte of a word is eight of its bits. -/
theorem beByte_eq_extractLsb' (w : Word) (k : Nat) : beByte 4 w.toNat k = w.extractLsb' (8 * (4 - 1 - k)) 8 := rfl

/-- Settles O26: each address of `OUT` against its eight bits of the operand. -/
theorem tsEncWritesTheEightBytes : Obligations.TsEncWritesTheEightBytes := by
  intro s hs hlen
  have hsec (k : Nat) (hk : k < 4) := outRead_tsEncOut_seconds ⟨s.tsInSec, s.tsInFrac⟩ hk
  have hfrac (k : Nat) (hk : k < 4) := outRead_tsEncOut_fraction ⟨s.tsInSec, s.tsInFrac⟩ hk
  simp only [beByte_eq_extractLsb'] at hsec hfrac
  exact ⟨tsEncOut ⟨s.tsInSec, s.tsInFrac⟩,
    hsec 0 (by decide), hsec 1 (by decide), hsec 2 (by decide), hsec 3 (by decide),
    hfrac 0 (by decide), hfrac 1 (by decide), hfrac 2 (by decide), hfrac 3 (by decide),
    fun _ ha => outRead_tsEncOut_past _ ha, exec_tsEnc_of_accepted hs hlen⟩

/-! ## The two undo each other -/

/-- Where `BUF` holds, from some address on, the bytes that encode a timestamp, that timestamp is decoded (R134). -/
theorem bufTs_of_tsEncOut {m : Memory} {a : Nat} {t : Timestamp}
    (h : ∀ k < 8, outRead (tsEncOut t) k = some (bufRead m (a + k))) : bufTs m a = t := by
  have hsec : bufWord m a = t.seconds := bufWord_of_beByte fun k hk =>
    Option.some.inj ((h k (by omega)).symm.trans (outRead_tsEncOut_seconds t hk))
  have hfrac : bufWord m (a + 4) = t.fraction := bufWord_of_beByte fun k hk => by
    rw [Nat.add_assoc]
    exact Option.some.inj ((h (4 + k) (by omega)).symm.trans (outRead_tsEncOut_fraction t hk))
  rw [bufTs_eq, hsec, hfrac]

/-- Encoding the timestamp read at an address gives the bytes found there (R140). -/
theorem outRead_tsEncOut_bufTs (m : Memory) (a : Nat) {k : Nat} (hk : k < 8) :
    outRead (tsEncOut (bufTs m a)) k = some (bufRead m (a + k)) := by
  rw [bufTs_eq]
  by_cases h : k < 4
  · rw [outRead_tsEncOut_seconds _ h, beByte_bufWord m a h]
  · obtain ⟨j, rfl⟩ := Nat.exists_eq_add_of_le (Nat.le_of_not_lt h)
    rw [outRead_tsEncOut_fraction _ (by omega), beByte_bufWord m (a + 4) (by omega), Nat.add_assoc]

/-- Settles O46: the copied bytes of `OUT` are the ones `TS.DEC` reads, and they encode the operands of `TS.ENC`. -/
theorem timestampDecodeOfEncode : Obligations.TimestampDecodeOfEncode := by
  intro s t o len bytes hs hslen hwf hlen hfits henc hlength hcopy
  rw [exec_tsEnc_of_accepted hs hslen] at henc
  cases henc
  have hload (k : Nat) (hk : k < 8) : outRead (tsEncOut ⟨s.tsInSec, s.tsInFrac⟩) k =
      some (bufRead (bufLoad s.buf o.toNat bytes) (o.toNat + k)) := by
    have hk' : k < bytes.length := by omega
    rw [bufRead_bufLoad hwf (by omega), if_pos (by omega), Nat.add_sub_cancel_left, List.getD_eq_getElem _ _ hk']
    exact hcopy k hk'
  have hts := bufTs_of_tsEncOut hload
  refine ⟨_, exec_tsDec_of_fits (s := { tsEncDone s with buf := bufLoad s.buf o.toNat bytes, len := len, off := o })
    Status.noConfusion hlen hfits, rfl, ?_, ?_⟩
  · exact congrArg (some ·.seconds) hts
  · exact congrArg (some ·.fraction) hts

/-- Settles O47: `ts_decode` reads the pair at the offset, whose encoding is the bytes there. -/
theorem timestampEncodeOfDecode : Obligations.TimestampEncodeOfDecode := by
  intro s off hfits hlen
  exact ⟨bufTs s.buf off, tsDecode_val hfits (hfits.trans hlen), fun _ hk => outRead_tsEncOut_bufTs s.buf off hk⟩

end Sys2Proof.Machine
end

section
/-! PROOFS. The header unpacker (spec 41_header_unpack R151 to R158): each step at the bytes it reads, and the two length
checks. -/

namespace Sys2Proof.Machine

/-! ## Where the length check of a step is known -/

theorem Eff.check_of_true {p : Prop} [Decidable p] (e : DecodeError) (h : p) : Eff.check (decide p) e = .val () :=
  Eff.check_eq_val.mpr (decide_eq_true h)

theorem Eff.check_of_false {p : Prop} [Decidable p] (e : DecodeError) (h : ¬ p) : Eff.check (decide p) e = .raised e :=
  Eff.check_eq_raised.mpr ⟨decide_eq_false h, rfl⟩

/-- Settles O10: the step is its length check alone. -/
theorem chkHdr12TestsTwelveBytes : Obligations.ChkHdr12TestsTwelveBytes := by
  intro s
  exact ⟨fun h => Eff.finish_of_raised (Eff.check_of_false _ (Nat.not_le.mpr h)) s _,
    fun h => Eff.finish_of_val (Eff.check_of_true _ h) s _⟩

/-! ## The byte steps -/

theorem b0Leap_eq_ofNat (b : Byte) : b0Leap b = BitVec.ofNat 2 (b.toNat / 64) := by
  rw [← b0Leap_toNat, BitVec.ofNat_toNat, BitVec.setWidth_eq]

theorem b0Version_eq_ofNat (b : Byte) : b0Version b = BitVec.ofNat 3 (b.toNat / 8 % 8) := by
  rw [← b0Version_toNat, BitVec.ofNat_toNat, BitVec.setWidth_eq]

theorem b0Mode_eq_ofNat (b : Byte) : b0Mode b = BitVec.ofNat 3 (b.toNat % 8) := by
  rw [← b0Mode_toNat, BitVec.ofNat_toNat, BitVec.setWidth_eq]

/-- Settles O11: byte 0 is read, and its three fields are its quotients and remainders by 64 and 8. -/
theorem unpkB0SplitsByteZero : Obligations.UnpkB0SplitsByteZero := by
  intro s h
  rw [← b0Leap_eq_ofNat, ← b0Version_eq_ofNat, ← b0Mode_eq_ofNat]
  exact Eff.finish_of_val (readU8_val h (by decide)) s _

/-- The packet's precision is the `PRECISION` byte as a signed number (R155, R41): the sixth of the parts it is read from. -/
theorem packet_precision {s : State} {b : Byte} {P : Packet} (hb : s.pkt.precision = some b) (hP : s.packet = some P) :
    P.precision = b.toInt := by
  rw [State.packet] at hP
  iterate 5 obtain ⟨_, -, hP⟩ := Option.bind_eq_some_iff.mp hP
  obtain ⟨b', hb', hP⟩ := Option.bind_eq_some_iff.mp hP
  iterate 10 obtain ⟨_, -, hP⟩ := Option.bind_eq_some_iff.mp hP
  obtain rfl : b = b' := Option.some.inj (hb.symm.trans hb')
  cases hP
  rfl

/-- Settles O12: each step reads its own byte; the reading of `PRECISION` takes 256 off a byte with the top bit set. -/
theorem byteLoadsStoreTheByte : Obligations.ByteLoadsStoreTheByte := by
  intro s
  refine ⟨fun b P hb hP => ?_, fun h => Eff.finish_of_val (readU8_val h (by decide)) s _,
    fun h => Eff.finish_of_val (readU8_val h (by decide)) s _,
    fun h => Eff.finish_of_val (readU8_val h (by decide)) s _⟩
  rw [packet_precision hb hP, BitVec.toInt_eq_toNat_cond]
  split_ifs <;> omega

/-! ## The word steps -/

/-- A word read from `BUF` is its four bytes, the first most significant (R67, R62). -/
theorem readU32_append {s : State} {a : Nat} (h : a + 4 ≤ s.len.toNat) (h' : a + 4 ≤ 128) :
    readU32 s a = .val (bufRead s.buf a ++ bufRead s.buf (a + 1) ++ bufRead s.buf (a + 2) ++ bufRead s.buf (a + 3)) := by
  rw [readU32_val h h', ← bufWord, bufWord_eq_append]

/-- Settles O13: each step reads its own four bytes. -/
theorem fixedPointLoadsStoreTheRawWord : Obligations.FixedPointLoadsStoreTheRawWord := by
  intro s
  exact ⟨fun h => Eff.finish_of_val (readU32_append h (by decide)) s _,
    fun h => Eff.finish_of_val (readU32_append h (by decide)) s _⟩

/-- Settles O14: the length check stands before the read, so the stale bytes of a short datagram are not touched. -/
theorem ldRefidChecksThenStores : Obligations.LdRefidChecksThenStores := by
  intro s
  refine ⟨fun hshort => ?_, fun hfits => ?_⟩
  · refine Eff.finish_of_raised ?_ s _
    rw [Eff.check_of_false _ (Nat.not_le.mpr hshort), Eff.bind_raised]
  · refine Eff.finish_of_val ?_ s _
    rw [Eff.check_of_true _ hfits, Eff.bind_val]
    exact readU32_append hfits (by decide)

end Sys2Proof.Machine
end

section
/-! PROOFS. The fixed-point readings (spec 41_header_unpack R159, R160): `q16_value` on the lattice of multiples of `2^-16`, and
`q16_encode` as the floor onto that lattice. -/

namespace Sys2Proof.Machine

/-! ## `q16_value` -/

theorem q16Value_mul (raw : Word) : q16Value raw * 65536 = raw.toInt :=
  div_mul_cancel₀ _ (by norm_num)

theorem q16Value_lt_iff {a b : Word} : q16Value a < q16Value b ↔ a.toInt < b.toInt := by
  rw [q16Value, q16Value, div_lt_div_iff_of_pos_right (by norm_num), Int.cast_lt]

/-- A signed word is its signed upper half and its unsigned lower half (R159). -/
theorem toInt_eq_halves (raw : Word) :
    raw.toInt = 65536 * (raw.extractLsb' 16 16).toInt + (raw.extractLsb' 0 16).toNat := by
  have hsplit : raw.extractLsb' 16 16 ++ raw.extractLsb' 0 16 = raw :=
    BitVec.extractLsb'_append_extractLsb' (w := 16) (len := 16)
  simpa [hsplit] using BitVec.toInt_append (x := raw.extractLsb' 16 16) (y := raw.extractLsb' 0 16)

/-- Settles O48: the halves of the signed word, divided by `2^16`. -/
theorem q16ValueSplitsAndIncreases : Obligations.Q16ValueSplitsAndIncreases := by
  refine ⟨fun raw => ?_, fun raw => ?_, fun _ _ => q16Value_lt_iff.symm⟩
  · norm_num [q16Value]
  · rw [q16Value, toInt_eq_halves]
    push_cast
    ring

/-! ## `q16_encode` -/

/-- The range of `q16_encode` is where the floor is a signed 32-bit number (R160). -/
theorem floor_mem_range_iff {x : Rat} :
    (-2 ^ 31 ≤ ⌊x * 65536⌋ ∧ ⌊x * 65536⌋ < 2 ^ 31) ↔ (-32768 ≤ x ∧ x < 32768) := by
  rw [Int.le_floor, Int.floor_lt]
  push_cast
  constructor <;> rintro ⟨hlow, hhigh⟩ <;> constructor <;> linarith

theorem q16Encode_of_inRange {x : Rat} (h : -32768 ≤ x ∧ x < 32768) : q16Encode x = some (BitVec.ofInt 32 ⌊x * 65536⌋) :=
  if_pos h

/-- What `q16_encode` answers: the word whose signed value is the floor, and no word where there is none such. -/
theorem q16Encode_eq_some_iff {x : Rat} {raw : Word} : q16Encode x = some raw ↔ ⌊x * 65536⌋ = raw.toInt := by
  by_cases h : -32768 ≤ x ∧ x < 32768
  · obtain ⟨hlow, hhigh⟩ := floor_mem_range_iff.mpr h
    rw [q16Encode_of_inRange h, Option.some_inj, ← BitVec.toInt_inj,
      BitVec.toInt_ofInt_eq_self (by decide) hlow hhigh]
  · have hnone : q16Encode x = none := if_neg h
    have hne : ⌊x * 65536⌋ ≠ raw.toInt := fun heq =>
      h (floor_mem_range_iff.mp (heq ▸ ⟨BitVec.le_toInt raw, BitVec.toInt_lt⟩))
    simp [hnone, hne]

theorem q16Encode_eq_none_iff {x : Rat} : q16Encode x = none ↔ ¬ (-32768 ≤ x ∧ x < 32768) := by
  simp [q16Encode]

/-- Settles O49: everything follows from the floor being the signed value of the word. -/
theorem q16EncodeRoundsDown : Obligations.Q16EncodeRoundsDown := by
  refine ⟨fun x hlow hhigh => ?_, fun raw => ?_, fun x raw h => ?_, fun x => ?_⟩
  · refine ⟨_, q16Encode_of_inRange ⟨hlow, hhigh⟩, ?_⟩
    have hpow : x * 2 ^ 16 = x * 65536 := by norm_num
    rw [hpow, BitVec.toNat_ofInt]
    omega
  · rw [q16Encode_eq_some_iff, q16Value_mul, Int.floor_intCast]
  · obtain ⟨hle, hlt⟩ := Int.floor_eq_iff.mp (q16Encode_eq_some_iff.mp h)
    rw [← q16Value_mul] at hle hlt
    constructor <;> linarith
  · rw [q16Encode_eq_none_iff, not_and_or, not_le, not_lt]

end Sys2Proof.Machine
end

section
/-! PROOFS. The tail steps (spec 42_extension_auth_parser R181 to R185): what each does at a known position, field by field
of the state. -/

namespace Sys2Proof.Machine

/-! ## `EXT.SCAN` -/

/-- The five tests of R181 on the position itself, for a position inside the datagram. -/
theorem scanTarget_sub {n p : Nat} (h : p ≤ n) (c : BitVec 2) :
    scanTarget (n - p) c.toNat =
      if n = p then .fin else if n = p + 20 then .auth else if c = 2 then .fin else if n < p + 4 then .fin
      else .exthdr := by
  have hempty : n - p = 0 ↔ n = p := by omega
  have htrailer : n - p = 20 ↔ n = p + 20 := by omega
  have hshort : n - p < 4 ↔ n < p + 4 := by omega
  have hcount : c.toNat = 2 ↔ c = 2 := BitVec.toNat_inj (y := 2)
  simp only [scanTarget, Config.authLen, Config.extMaxCount, Config.extHdrLen, hempty, htrailer, hshort, hcount]

/-- Settles O16: the step is the dispatch at the position and the count, and writes the phase alone. -/
theorem extScanDispatches : Obligations.ExtScanDispatches := by
  intro s p c hp hc hle
  rw [← scanTarget_sub hle, ← hp, ← hc]
  refine Eff.finish_of_val ?_ s _
  rw [remaining_val hp hle, Eff.bind_val, readExtcnt_val hc, Eff.bind_val]

/-! ## `EXT.HDR` -/

/-- A half-word read from `BUF` is its two bytes, the first most significant (R67, R62). -/
theorem readU16_append {s : State} {a : Nat} (h : a + 2 ≤ s.len.toNat) (h' : a + 2 ≤ 128) :
    readU16 s a = .val (bufRead s.buf a ++ bufRead s.buf (a + 1)) := by
  have hfirst : BitVec.ofNat 8 (beNat (bufBytes s.buf a 1)) = bufRead s.buf a := by simp [bufBytes, beNat]
  rw [readU16_val h h', bufBytes_succ, ofNat_beNat_concat 8, hfirst]

/-- Settles O17: the two words are those at the position, and the length check, in natural numbers, does not wrap. -/
theorem extHdrChecksTheLength : Obligations.ExtHdrChecksTheLength := by
  intro s p t l hp hlen hbuf ht hl
  have hbody : exec .extHdr s =
      ((Eff.check (extLengthOk l.toNat (s.len.toNat - p.toNat)) .malformedExtension).bind fun _ => .val (t, l)).finish s
        fun r => State.setPhase { s with xtType := some r.1, xtLen := some r.2 } .extval := by
    show execExtHdr s = _
    rw [execExtHdr, remaining_val hp (by omega), Eff.bind_val, readPos_val hp, Eff.bind_val,
      readU16_append (by omega) (by omega), Eff.bind_val, readU16_append (by omega) (by omega), Eff.bind_val, ← ht, ← hl]
  rw [hbody, ← hp]
  refine ⟨fun hbad => ?_, fun hmin hfit => ?_⟩
  · have hcheck : ¬ extLengthOk l.toNat (s.len.toNat - p.toNat) = true := by rw [extLengthOk_iff]; omega
    rw [Bool.eq_false_iff.mpr hcheck, Eff.check_false, Eff.bind_raised, Eff.finish_raised]
  · have hcheck : extLengthOk l.toNat (s.len.toNat - p.toNat) = true := extLengthOk_iff.mpr ⟨hmin, by omega⟩
    rw [hcheck, Eff.check_true, Eff.bind_val, Eff.finish_val]
    rfl

/-! ## `EXT.VAL` -/

/-- `EXT.VAL` with its operands at hand: the descriptor that the count selects, then the position after the field (R183). -/
theorem exec_extVal_of_commit {s s' : State} {p : BitVec 8} {c : BitVec 2} {t l : Half} (hp : s.pc.pos = some p)
    (hc : s.pc.extcnt = some c) (ht : s.xtType = some t) (hl : s.xtLen = some l) (hfit : p.toNat + 4 + l.toNat ≤ 128)
    (hcommit : commitExt s c.toNat t l (BitVec.ofNat 8 (p.toNat + 4)) = .val s') :
    exec .extVal s = .next (State.setPc { s' with xtType := none, xtLen := none } .scan
      (BitVec.ofNat 8 (p.toNat + 4 + l.toNat)) (BitVec.ofNat 2 (c.toNat + 1))) := by
  refine Eff.finish_of_val ?_ s _
  rw [readPos_val hp, Eff.bind_val, readExtcnt_val hc, Eff.bind_val, readXtType_eq_val.mpr ht, Eff.bind_val,
    readXtLen_eq_val.mpr hl, Eff.bind_val, newPos_val hfit, Eff.bind_val, hcommit, Eff.bind_val]

/-- Settles O18: the count 0 selects the first descriptor, the count 1 the second. -/
theorem extValCommitsTheDescriptor : Obligations.ExtValCommitsTheDescriptor := by
  intro s p t l hp ht hl hfit
  exact ⟨fun hc => exec_extVal_of_commit hp hc ht hl hfit (commitExt_eq_val.mpr (.inl ⟨rfl, rfl⟩)),
    fun hc => exec_extVal_of_commit hp hc ht hl hfit (commitExt_eq_val.mpr (.inr ⟨rfl, rfl⟩))⟩

/-! ## `AUTH.LD` and `FIN.CHK` -/

/-- Settles O19: the four bytes at the position as a word, the sixteen after them one by one. -/
theorem authLdTakesTheTrailer : Obligations.AuthLdTakesTheTrailer := by
  intro s p hp hlen hbuf
  refine ⟨Vector.ofFn fun i => bufRead s.buf (p.toNat + 4 + i.val), fun i hi => Vector.getElem_ofFn hi,
    Eff.finish_of_val (a := (_, _, BitVec.ofNat 8 (p.toNat + 20))) ?_ s _⟩
  simp only [Config.keyIdLen, Config.authLen]
  rw [readPos_val hp, Eff.bind_val, readU32_append (by omega) (by omega), Eff.bind_val,
    readDigest_val (by omega) (by omega), Eff.bind_val, newPos_val hbuf, Eff.bind_val]
  rfl

/-- Settles O20: the step is its check that no byte is left. -/
theorem finChkCompletesOrRaises : Obligations.FinChkCompletesOrRaises := by
  intro s p hp
  refine ⟨fun hend => ?_, fun hleft => ?_⟩
  · rw [← hp]
    refine Eff.finish_of_val (a := ()) ?_ s _
    rw [remaining_val hp hend.le, Eff.bind_val, Eff.check_of_true _ (Nat.sub_eq_zero_of_le hend.ge)]
  · refine Eff.finish_of_raised ?_ s _
    rw [remaining_val hp hleft.le, Eff.bind_val, Eff.check_of_false _ (Nat.sub_ne_zero_of_lt hleft)]

end Sys2Proof.Machine
end

section
/-! PROOFS. The outcome as a function of the tail (spec 42_extension_auth_parser R190): each row of the table is one way in
which `pkt_decode` goes on from a position, nothing left, a trailer, bytes left over, a bad length, or a further field. -/

namespace Sys2Proof.Machine

/-! ## How `pkt_decode` goes on from a position -/

section Ends

variable {buf : List Byte} {k p : Nat} (fs : List ExtField)

theorem tailOutcome_of_empty (h : buf.length - p = 0) : tailOutcome buf fs k p = .ok (mkPacket buf fs none) := by
  have hauth : parseAuth buf p = none := if_neg (by omega)
  rw [tailOutcome_of_done (.inr (.inl h)), closeOutcome, if_pos (.inl h), hauth]

theorem tailOutcome_of_trailer (h : buf.length - p = 20) :
    tailOutcome buf fs k p = .ok (mkPacket buf fs (some (trailerAt buf p))) := by
  rw [tailOutcome_of_done (.inr (.inr (.inl h))), closeOutcome, if_pos (.inr h), parseAuth_of_twenty h]

/-- Bytes are left over where too few remain for a field, or where no further field is allowed (R218). -/
theorem tailOutcome_of_garbage {n : Nat} (hn : buf.length - p = n) (h0 : n ≠ 0) (h20 : n ≠ 20)
    (hdone : k = 0 ∨ n < 4) : tailOutcome buf fs k p = .error (.trailingGarbage n) := by
  subst hn
  rw [tailOutcome_of_done (by tauto), closeOutcome, if_neg (by tauto)]

end Ends

/-- A trailer with the key identifier and the digest that stand at a position is the one read there (R97). -/
theorem trailerAt_eq {buf : List Byte} {p : Nat} {a : AuthTrailer} (hkey : a.keyId = be32 buf p)
    (hdigest : ∀ (i : Nat) (h : i < 16), a.digest[i] = byteAt buf (p + 4 + i)) : trailerAt buf p = a := by
  obtain ⟨key, digest⟩ := a
  have hbytes : Vector.ofFn (fun i : Fin 16 => byteAt buf (p + 4 + i.val)) = digest :=
    Vector.ext fun i hi => by rw [Vector.getElem_ofFn, hdigest i hi]
  rw [trailerAt, hbytes, ← hkey]

/-- Settles O44, row by row, with the two fields read one after the other: each row is the way `pkt_decode` goes on from
48, from the end of the first field, or from the end of the second. -/
theorem tailDecidesTheOutcome : Obligations.TailDecidesTheOutcome := by
  intro buf T L1 T1 L2 T2 f g a hlen hT hL1 hT1 hL2 hT2 hf hg hkey hdigest
  have htrailer : ∀ p, buf.length - p = 20 → trailerAt buf p = a := by
    intro p hp
    obtain rfl : p = buf.length - 20 := by omega
    have hstart : buf.length - 20 + 4 = buf.length - 16 := by omega
    exact trailerAt_eq hkey fun i hi => by rw [hdigest i hi, hstart]
  rw [pktDecode_of_long hlen]
  refine ⟨fun h => ?_, fun h => ?_, fun h1 h3 => ?_, fun h4 h20 hbad => ?_, fun h20 hmin hfit => ?_⟩
  · exact tailOutcome_of_empty [] (by omega)
  · rw [tailOutcome_of_trailer [] (by omega), htrailer 48 (by omega)]
  · exact tailOutcome_of_garbage [] hT.symm (by omega) (by omega) (by omega)
  · exact tailOutcome_of_malformed [] (l := be16 buf 50) (by omega) (by omega) rfl (by omega)
  have hrem1 : buf.length - (52 + L1) = T1 := by omega
  have hfield1 : tailOutcome buf [] 2 48 = tailOutcome buf [f] 1 (52 + L1) := by
    rw [hf, hL1]
    exact tailOutcome_of_field [] (l := be16 buf 50) (by omega) (by omega) rfl (by omega)
  rw [hfield1]
  refine ⟨fun h => ?_, fun h => ?_, fun h1 h3 => ?_, fun h4 h20 hbad => ?_, fun h20 hmin hfit => ?_⟩
  · exact tailOutcome_of_empty [f] (by omega)
  · rw [tailOutcome_of_trailer [f] (by omega), htrailer (52 + L1) (by omega)]
  · exact tailOutcome_of_garbage [f] hrem1 (by omega) (by omega) (by omega)
  · exact tailOutcome_of_malformed [f] (l := be16 buf (52 + L1 + 2)) (by omega) (by omega) rfl (by omega)
  have hrem2 : buf.length - (52 + L1 + 4 + L2) = T2 := by omega
  have hfield2 : tailOutcome buf [f] 1 (52 + L1) = tailOutcome buf [f, g] 0 (52 + L1 + 4 + L2) := by
    rw [hg, hL2]
    exact tailOutcome_of_field [f] (l := be16 buf (52 + L1 + 2)) (by omega) (by omega) rfl (by omega)
  rw [hfield2]
  refine ⟨fun h => ?_, fun h => ?_, fun h0 h20 => ?_⟩
  · exact tailOutcome_of_empty [f, g] (by omega)
  · rw [tailOutcome_of_trailer [f, g] (by omega), htrailer (52 + L1 + 4 + L2) (by omega)]
  · exact tailOutcome_of_garbage [f, g] hrem2 h0 h20 (.inl rfl)

end Sys2Proof.Machine
end

section
/-! PROOFS. How many steps a `PKT.DEC` runs (spec 42_extension_auth_parser R189): at most 21, since the engine's run ends
within them; at least 14 when it succeeds, since no step gets more than one move nearer to the successful end. -/

namespace Sys2Proof.Machine

/-! ## Runs of a counted number of steps -/

/-- The engine runs exactly `k` steps from one state to another, BUSY before each of them (R13). -/
inductive BusyRun : Nat → State → State → Prop
  /-- No step. -/
  | done (s : State) : BusyRun 0 s s
  /-- One step of a BUSY machine, and the steps after it. -/
  | move {k : Nat} {s u t : State} (hs : s.status = .busy) (hstep : step s = .next u) (hrun : BusyRun k u t) :
      BusyRun (k + 1) s t

theorem core_run_succ {s u : State} (hstep : step s = .next u) (k : Nat) :
    Host.Core.run core (k + 1) s = Host.Core.run core k u := by
  have hcore : core.step s = .next u := hstep
  simp only [Host.Core.run, hcore]

theorem BusyRun.run_eq {k : Nat} {s t : State} (h : BusyRun k s t) : Host.Core.run core k s = .next t := by
  induction h with
  | done s => rfl
  | move _ hstep _ ih => rw [core_run_succ hstep, ih]

theorem BusyRun.busy_before {k : Nat} {s t : State} (h : BusyRun k s t) :
    ∀ j < k, ∃ v, Host.Core.run core j s = .next v ∧ v.status = .busy := by
  induction h with
  | done s => exact fun _ hj => absurd hj (Nat.not_lt_zero _)
  | @move k s u t hs hstep _ ih =>
    intro j hj
    cases j with
    | zero => exact ⟨s, rfl, hs⟩
    | succ j =>
      rw [core_run_succ hstep]
      exact ih j (Nat.lt_of_succ_lt_succ hj)

/-- A machine that is not BUSY has no step to run. -/
theorem BusyRun.eq_of_not_busy {k : Nat} {s t : State} (h : BusyRun k s t) (hs : s.status ≠ .busy) : t = s := by
  cases h with
  | done => rfl
  | move hbusy => exact absurd hbusy hs

/-- The engine's moves, at most `n`, are a run of some number of steps not above `n`. -/
theorem busyRun_of_engineMoves {n : Nat} {s t : State} (h : engineMoves n s = .next t) : ∃ k ≤ n, BusyRun k s t := by
  induction n generalizing s with
  | zero =>
    cases h
    exact ⟨0, le_rfl, .done _⟩
  | succ n ih =>
    by_cases hs : s.status = .busy
    · cases hstep : step s with
      | next u =>
        rw [engineMoves_succ n hs hstep] at h
        obtain ⟨k, hk, hrun⟩ := ih h
        exact ⟨k + 1, Nat.succ_le_succ hk, .move hs hstep hrun⟩
      | fault f => simp [engineMoves, hs, hstep] at h
      | refused r => simp [engineMoves, hs, hstep] at h
    · rw [engineMoves_of_not_busy hs] at h
      cases h
      exact ⟨0, Nat.zero_le _, .done _⟩

/-! ## The fewest steps to a successful end -/

/-- The fewest steps from a phase to a successful end: one from `P_FIN`; from the others, the header steps still to run,
then `EXT.SCAN` and `FIN.CHK`. -/
def phaseFewest : Phase → Nat
  | .fin => 1
  | ph => 14 - phaseRank ph

/-- The fewest steps from a state to a successful end: none when the command is over. -/
def fewestMoves (s : State) : Nat := if s.status = .busy then phaseFewest s.pc.phase else 0

theorem fewestMoves_of_busy {s : State} (hs : s.status = .busy) : fewestMoves s = phaseFewest s.pc.phase := if_pos hs

theorem fewestMoves_of_not_busy {s : State} (hs : s.status ≠ .busy) : fewestMoves s = 0 := if_neg hs

theorem one_le_phaseFewest (ph : Phase) : 1 ≤ phaseFewest ph := by
  cases ph <;> decide

section OneStep

variable {s t : State} (hs : s.status = .busy) (ht : t.status ≠ .err)
include hs

/-- A move between phases of which the second is at most one move nearer to the successful end. -/
theorem fewestMoves_le_of_phase {u : State} {ph : Phase} (hph : s.pc.phase = ph) (hu : u.status = s.status)
    (hle : phaseFewest ph ≤ phaseFewest u.pc.phase + 1) : fewestMoves s ≤ fewestMoves u + 1 := by
  rwa [fewestMoves_of_busy hs, hph, fewestMoves_of_busy (hu.trans hs)]

include ht

/-- A step that does not raise an error goes to its value's phase. -/
theorem Eff.finish_fewestMoves {α : Type} {x : Eff α} {k : α → State} {ph : Phase} (hph : s.pc.phase = ph)
    (h : x.finish s k = .next t) (hstatus : ∀ a, (k a).status = s.status)
    (hle : ∀ a, phaseFewest ph ≤ phaseFewest (k a).pc.phase + 1) : fewestMoves s ≤ fewestMoves t + 1 := by
  rcases Eff.finish_eq_next.mp h with ⟨a, -, rfl⟩ | ⟨e, -, rfl⟩
  · exact fewestMoves_le_of_phase hs hph (hstatus a) (hle a)
  · exact absurd rfl ht

/-- The step that the phase selects gets at most one move nearer to the successful end, unless it raises an error. -/
theorem fewestMoves_le_of_exec {i : Instr} (hd : decodePhase s.pc.phase = .ok i) (h : exec i s = .next t) :
    fewestMoves s ≤ fewestMoves t + 1 := by
  generalize hph : s.pc.phase = ph at hd
  cases ph <;> cases hd
  case chk | b0 | stratum | poll | prec | rdelay | rdisp | refid | tsref | tsorg | tsrcv | tsxmt | auth =>
    exact Eff.finish_fewestMoves hs ht hph h (fun _ => rfl) fun _ => Nat.le_refl _
  case scan =>
    exact Eff.finish_fewestMoves hs ht hph h (fun _ => rfl) fun ph' => Nat.succ_le_succ (one_le_phaseFewest ph')
  case exthdr => exact Eff.finish_fewestMoves hs ht hph h (fun _ => rfl) fun _ => Nat.le_succ _
  case extval =>
    obtain ⟨p, c, ty, l, -, -, -, -, ⟨-, rfl⟩ | ⟨-, rfl⟩⟩ := execExtVal_eq_next h
    · exact fewestMoves_le_of_phase hs hph rfl (Nat.le_succ _)
    · exact fewestMoves_le_of_phase hs hph rfl (Nat.le_succ _)
  case fin =>
    rw [fewestMoves_of_busy hs, hph]
    exact Nat.succ_le_succ (Nat.zero_le _)

/-- A BUSY step gets at most one move nearer to the successful end, unless it raises an error (R213). -/
theorem fewestMoves_le_of_step (h : step s = .next t) : fewestMoves s ≤ fewestMoves t + 1 := by
  cases hd : decodePhase s.pc.phase with
  | ok i => exact fewestMoves_le_of_exec hs ht hd (step_of_busy hs hd ▸ h)
  | error r =>
    rw [step_of_busy_idle hs (decodePhase_eq_error hd)] at h
    cases h
    exact Nat.le_succ _

end OneStep

/-- A run that ends with STATUS OK is no shorter than the fewest moves from its start. -/
theorem BusyRun.fewestMoves_le {k : Nat} {s t : State} (h : BusyRun k s t) (hok : t.status = .ok) :
    fewestMoves s ≤ k := by
  induction h with
  | done s => rw [fewestMoves_of_not_busy (by simp [hok])]
  | @move k s u t hs hstep hrun ih =>
    have hu : u.status ≠ .err := fun herr => by
      rw [hrun.eq_of_not_busy (by simp [herr]), herr] at hok
      cases hok
    exact (fewestMoves_le_of_step hs hu hstep).trans (Nat.succ_le_succ (ih hok))

/-! ## The whole command -/

/-- A state with an outcome is not BUSY (R13). -/
theorem not_busy_of_result {t : State} {r : Except DecodeError Packet} (h : t.result = some r) : t.status ≠ .busy := by
  intro hs
  simp [State.result, hs] at h

/-- Settles O40: the engine's moves end within 21, as a run of a counted number of steps; from `P_CHK` the fewest to a
successful end are 14. -/
theorem pktDecRunsFourteenToTwentyOneSteps : Obligations.PktDecRunsFourteenToTwentyOneSteps := by
  intro s hcmd hs hlen
  obtain ⟨t, hmoves, hresult⟩ := endsWith_pktDecStart hlen
  obtain ⟨k, hk, hrun⟩ := busyRun_of_engineMoves hmoves
  have hstep : step s = .next ((startAction s).setPc .chk 0 0) :=
    step_of_accepted (i := .pktDec) (body := fun s' => .next (s'.setPc .chk 0 0)) hs hlen (by rw [hcmd]; rfl) rfl
  exact ⟨_, k, t, hstep, hrun.run_eq, not_busy_of_result hresult, hk, hrun.fewestMoves_le, hrun.busy_before⟩

end Sys2Proof.Machine
end

section
/-! PROOFS. The commands and their START (spec 43_sequencer_commands R210 to R221): what a START does while BUSY, with too
long a `LEN`, and otherwise; which packet registers a step writes; and how every accepted command ends. -/

namespace Sys2Proof.Machine

/-! ## START -/

theorem onStart_busy {s : State} {body : State → Outcome} (hs : s.status = .busy) : onStart s body = .next s :=
  onStart_eq_next.mpr (.inl ⟨hs, rfl⟩)

theorem onStart_refused {s : State} {body : State → Outcome} (hs : s.status ≠ .busy) (hlen : 128 < s.len.toNat) :
    onStart s body = .refused .lenOverBufSize := by
  rw [onStart, if_neg hs, if_pos hlen]

theorem exec_pktDec_eq (s : State) : exec .pktDec s = onStart s fun s' => .next (s'.setPc .chk 0 0) := rfl

/-- A START of NOP has no effect, whatever the status is (R211). -/
theorem startEvent_of_nop {s : State} (hcmd : s.cmd = 0b00) : startEvent s = .next s := by
  rw [startEvent_eq, hcmd]
  rfl

/-- While BUSY the meaning of every command that `CMD` can select leaves the state as it is (R216). -/
theorem exec_of_command_busy {s : State} {i : Instr} (hs : s.status = .busy)
    (hi : i = .nop ∨ i = .pktDec ∨ i = .tsDec ∨ i = .tsEnc) : exec i s = .next s := by
  rcases hi with rfl | rfl | rfl | rfl
  · rfl
  · exact (exec_pktDec_eq s).trans (onStart_busy hs)
  · exact onStart_busy hs
  · exact onStart_busy hs

/-- Settles O21: the meaning of NOP is the state it is given, and the START of `CMD` 0b00 is that meaning. -/
theorem nopHasNoEffect : Obligations.NopHasNoEffect := fun _ => ⟨rfl, startEvent_of_nop⟩

/-- Settles O22: the START event is the meaning of one of the four commands, and each is ignored. -/
theorem startWhileBusyIsIgnored : Obligations.StartWhileBusyIsIgnored := by
  intro s i hs hi
  exact ⟨exec_of_command_busy hs (by simpa using hi), exec_of_command_busy hs (decodeCmd_cases s.cmd)⟩

/-- Settles O23: each of the three commands is a START with a part of its own. -/
theorem startWithLenOverBufSizeIsRefused : Obligations.StartWithLenOverBufSizeIsRefused := by
  intro s i hs hlen hi
  simp only [List.mem_cons, List.not_mem_nil, or_false] at hi
  rcases hi with rfl | rfl | rfl
  · exact (exec_pktDec_eq s).trans (onStart_refused hs hlen)
  · exact onStart_refused hs hlen
  · exact onStart_refused hs hlen

/-- Settles O24: the START action, then the command's own part. -/
theorem pktDecStartWipesAndBegins : Obligations.PktDecStartWipesAndBegins := fun s hs hlen =>
  (exec_pktDec_eq s).trans (onStart_accepted hs hlen)

/-! ## The packet registers -/

/-- Settles O32, step by step: a step that answers takes the error exit, or its value's state, which differs in the
step's own registers. -/
theorem eachStepWritesItsOwnRegisters : Obligations.EachStepWritesItsOwnRegisters := by
  intro i s t hi h
  cases i
  case pktDec | tsDec | tsEnc => exact absurd (by decide) hi
  case nop | modeReserved | modeSymmetricActive | modeSymmetricPassive | modeClient | modeServer | modeBroadcast
      | modeControl | modeReservedPrivate =>
    cases h
    exact .inr (by simp)
  case chkHdr12 | unpkB0 | ldStratum | ldPoll | ldPrec | ldRdelay | ldRdisp | ldRefid | tsRef | tsOrg | tsRcv | tsXmt
      | extScan | extHdr | authLd | finChk =>
    rcases Eff.finish_eq_next.mp h with ⟨a, -, rfl⟩ | ⟨e, -, rfl⟩
    · exact .inr (by simp)
    · exact .inl ⟨e, rfl⟩
  case extVal =>
    obtain ⟨p, c, ty, l, -, -, -, -, ⟨-, rfl⟩ | ⟨-, rfl⟩⟩ := execExtVal_eq_next h
    · exact .inr (by simp [commitExt1])
    · exact .inr (by simp [commitExt2])

/-! ## How a command ends -/

/-- When the command is over the parse position is idle, with STATUS OK or ERR (R215, R245). -/
structure Ended (t : State) : Prop where
  idle : t.pc.phase = .idle
  status : t.status = .ok ∨ t.status = .err

theorem ended_raiseError (e : DecodeError) (s : State) : Ended (raiseError e s) := ⟨rfl, .inr rfl⟩

theorem ended_completeOk (s : State) : Ended (completeOk s) := ⟨rfl, .inl rfl⟩

/-- A step of a parse goes on, or it ends the command, and then STATUS OK comes with `RESID` 0 (R185). -/
def GoesOnOrEnds (t : State) : Prop := t.status = .busy ∨ (Ended t ∧ (t.status = .ok → t.resid = some 0))

theorem Eff.finish_goesOnOrEnds {α : Type} {x : Eff α} {s t : State} {k : α → State} (h : x.finish s k = .next t)
    (hk : ∀ a, GoesOnOrEnds (k a)) : GoesOnOrEnds t := by
  rcases Eff.finish_eq_next.mp h with ⟨a, -, rfl⟩ | ⟨e, -, rfl⟩
  · exact hk a
  · exact .inr ⟨ended_raiseError e s, nofun⟩

theorem exec_goesOnOrEnds {s t : State} {i : Instr} (hs : s.status = .busy) (hd : decodePhase s.pc.phase = .ok i)
    (h : exec i s = .next t) : GoesOnOrEnds t := by
  generalize s.pc.phase = ph at hd
  cases ph <;> cases hd
  case chk | b0 | stratum | poll | prec | rdelay | rdisp | refid | tsref | tsorg | tsrcv | tsxmt | scan | exthdr | auth =>
    exact Eff.finish_goesOnOrEnds h fun _ => .inl hs
  case extval =>
    obtain ⟨p, c, ty, l, -, -, -, -, ⟨-, rfl⟩ | ⟨-, rfl⟩⟩ := execExtVal_eq_next h
    · exact .inl hs
    · exact .inl hs
  case fin => exact Eff.finish_goesOnOrEnds h fun _ => .inr ⟨ended_completeOk _, fun _ => rfl⟩

theorem step_goesOnOrEnds {s t : State} (hs : s.status = .busy) (h : step s = .next t) : GoesOnOrEnds t := by
  cases hd : decodePhase s.pc.phase with
  | ok i => exact exec_goesOnOrEnds hs hd (step_of_busy hs hd ▸ h)
  | error r =>
    rw [step_of_busy_idle hs (decodePhase_eq_error hd)] at h
    cases h
    exact .inl hs

/-- A step leaves the host's side as it is (R45, R210). -/
theorem step_sameHostSide {s t : State} (h : step s = .next t) : SameHostSide s t := by
  unfold step runSelected at h
  cases hd : (decode s.selector).toOption with
  | some i => exact engineNeverWritesTheHostSide i s t (by rwa [hd] at h)
  | none =>
    rw [hd] at h
    cases h
    exact (StepFrame.refl s).1

theorem SameHostSide.trans {s t u : State} (h : SameHostSide s t) (h' : SameHostSide t u) : SameHostSide s u := by
  obtain ⟨hlen, hcmd, hoff, hsec, hfrac, hbuf⟩ := h
  obtain ⟨hlen', hcmd', hoff', hsec', hfrac', hbuf'⟩ := h'
  exact ⟨hlen'.trans hlen, hcmd'.trans hcmd, hoff'.trans hoff, hsec'.trans hsec, hfrac'.trans hfrac,
    fun a => (hbuf' a).trans (hbuf a)⟩

theorem BusyRun.sameHostSide {k : Nat} {s t : State} (h : BusyRun k s t) : SameHostSide s t := by
  induction h with
  | done s => exact (StepFrame.refl s).1
  | move _ hstep _ ih => exact (step_sameHostSide hstep).trans ih

theorem BusyRun.goesOnOrEnds {k : Nat} {s t : State} (h : BusyRun k s t) (hs : GoesOnOrEnds s) : GoesOnOrEnds t := by
  induction h with
  | done => exact hs
  | move hbusy hstep _ ih => exact ih (step_goesOnOrEnds hbusy hstep)

/-! ## `PKT.DEC` -/

theorem result_eq_ok_iff {t : State} {P : Packet} :
    t.result = some (.ok P) ↔ t.status = .ok ∧ t.packet = some P := by
  cases hs : t.status <;> simp [State.result, hs]

theorem result_eq_error_iff {t : State} {e : DecodeError} :
    t.result = some (.error e) ↔ t.status = .err ∧ t.decodeError = some e := by
  cases hs : t.status <;> simp [State.result, hs]

/-- An accepted `PKT.DEC` ends with the outcome of `pkt_decode`, and the host's side is as it was (R210 to R218). -/
theorem pktDec_ends {s : State} (hs : s.status ≠ .busy) (hlen : s.len.toNat ≤ 128) (hcmd : decodeCmd s.cmd = .pktDec) :
    ∃ u t, step s = .next u ∧ runCommand u = .next t ∧ SameHostSide s t ∧ Ended t ∧ (t.status = .ok → t.resid = some 0) ∧
      t.result = some (pktDecode s.datagram) := by
  have hstep : step s = .next ((startAction s).setPc .chk 0 0) :=
    step_of_accepted hs hlen hcmd (exec_pktDec_eq s)
  obtain ⟨t, hmoves, hresult⟩ := endsWith_pktDecStart hlen
  obtain ⟨k, -, hrun⟩ := busyRun_of_engineMoves hmoves
  rcases hrun.goesOnOrEnds (.inl rfl) with hbusy | ⟨hended, hresid⟩
  · exact absurd hbusy (not_busy_of_result hresult)
  · exact ⟨_, t, hstep, hmoves, (step_sameHostSide hstep).trans hrun.sameHostSide, hended, hresid, hresult⟩

/-- Settles O39: the run ends with the outcome of `pkt_decode`, which STATUS, the packet registers and the error registers
tell apart. -/
theorem pktDecComputesPktDecode : Obligations.PktDecComputesPktDecode := by
  intro s hcmd hs hlen
  obtain ⟨u, t, hstep, hrun, hhost, hended, hresid, hresult⟩ := pktDec_ends hs hlen (by rw [hcmd]; rfl)
  refine ⟨u, t, hstep, hrun, hended.idle, hhost, fun P => ?_, fun e => ?_⟩
  · calc (t.status = .ok ∧ t.packet = some P ∧ t.resid = some 0)
        ↔ t.status = .ok ∧ t.packet = some P :=
          ⟨fun ⟨hok, hP, _⟩ => ⟨hok, hP⟩, fun ⟨hok, hP⟩ => ⟨hok, hP, hresid hok⟩⟩
      _ ↔ t.result = some (.ok P) := result_eq_ok_iff.symm
      _ ↔ pktDecode s.datagram = .ok P := by rw [hresult, Option.some_inj]
  · rw [← result_eq_error_iff, hresult, Option.some_inj]

/-! ## Every command -/

/-- The own part of `TS.DEC` ends the command, with the pair or with the truncation (R132). -/
theorem tsDecAction_ends {s : State} (hlen : s.len.toNat ≤ 128) : ∃ t, tsDecAction s = .next t ∧ Ended t := by
  obtain ⟨t, ht⟩ := (tsDecode_noStop hlen s.off.toNat).finish s
    fun ts => completeOk (loseFlags { s with tsdSec := some ts.seconds, tsdFrac := some ts.fraction })
  refine ⟨t, ht, ?_⟩
  rcases Eff.finish_eq_next.mp ht with ⟨ts, -, rfl⟩ | ⟨e, -, rfl⟩
  · exact ended_completeOk _
  · exact ended_raiseError e s

theorem Ended.not_busy {t : State} (h : Ended t) : t.status ≠ .busy := by
  rcases h.status with h | h <;> simp [h]

/-- Settles O41, command by command: `PKT.DEC` by its run, the timestamp commands in their one transition. -/
theorem everyAcceptedCommandEnds : Obligations.EveryAcceptedCommandEnds := by
  intro s hcmd hs hlen
  rcases decodeCmd_cases s.cmd with hi | hi | hi | hi
  · exact absurd hi (decodeCmd_ne_nop hcmd)
  · obtain ⟨u, t, hstep, hrun, -, hended, -, -⟩ := pktDec_ends hs hlen hi
    exact ⟨u, t, hstep, hrun, hended.status, hended.idle⟩
  · obtain ⟨t, ht, hended⟩ := tsDecAction_ends (s := startAction s) hlen
    have hstep : step s = .next t := (step_of_accepted hs hlen hi rfl).trans ht
    exact ⟨t, t, hstep, engineMoves_of_not_busy hended.not_busy _, hended.status, hended.idle⟩
  · have hstep : step s = tsEncAction (startAction s) := step_of_accepted hs hlen hi rfl
    exact ⟨_, _, hstep, engineMoves_of_not_busy Status.noConfusion _, .inl rfl, rfl⟩

/-- Settles O36: inside the invariant a BUSY step answers, a START of NOP does nothing, and a legal START of another command
is accepted. -/
theorem stepNeverStopsInsideInvariant : Obligations.StepNeverStopsInsideInvariant := by
  intro s hi hlegal
  by_cases hs : s.status = .busy
  · exact step_answers_of_busy hi hs
  · by_cases hcmd : s.cmd = 0b00
    · exact ⟨s, (step_of_not_busy hs).trans (startEvent_of_nop hcmd)⟩
    · obtain ⟨u, -, hstep, -⟩ := everyAcceptedCommandEnds s hcmd hs (hlegal hs hcmd)
      exact ⟨u, hstep⟩

end Sys2Proof.Machine
end

section
/-! PROOFS. Errors and the host around them (spec 60_exceptions R241 to R262): what the error exit records, that the next
`PKT.DEC` sees none of it, which truncation a short datagram gives, the Validator, and the Receive Loop one pass at a time. -/

namespace Sys2Proof.Machine

/-! ## The error exit and the command after it -/

/-- Settles O28: each kind of error has its code and its operands; the rest of the error exit is the same for all three. -/
theorem errorExitRecordsAndWipes : Obligations.ErrorExitRecordsAndWipes := by
  intro e s
  cases e with
  | truncated need have_ => exact ⟨rfl, rfl⟩
  | malformedExtension => exact ⟨rfl, rfl⟩
  | trailingGarbage n => exact ⟨rfl, rfl⟩

/-- The START of a `PKT.DEC` writes every component but the host's side, so the state it begins in is a function of that
side alone (R210). -/
theorem pktDecStart_eq_of_hostSide {s u : State} (hbuf : u.buf = s.buf) (hlen : u.len = s.len) (hcmd : u.cmd = s.cmd)
    (hoff : u.off = s.off) (hsec : u.tsInSec = s.tsInSec) (hfrac : u.tsInFrac = s.tsInFrac) :
    (startAction u).setPc .chk 0 0 = (startAction s).setPc .chk 0 0 := by
  simp only [State.setPc, startAction, clearFlags, hbuf, hlen, hcmd, hoff, hsec, hfrac]

/-- Settles O29: the error exit leaves the host's side, and both machines accept. -/
theorem errorLeavesNothingBehind : Obligations.ErrorLeavesNothingBehind := by
  intro e s u hs hle hbuf hlen hcmd hoff hsec hfrac
  have hle' : (raiseError e u).len.toNat ≤ 128 := by rwa [raiseError_len, hlen]
  refine ⟨(startAction s).setPc .chk 0 0, ?_, pktDecStartWipesAndBegins s hs hle⟩
  calc exec .pktDec (raiseError e u)
      = .next ((startAction (raiseError e u)).setPc .chk 0 0) :=
        pktDecStartWipesAndBegins (raiseError e u) Status.noConfusion hle'
    _ = .next ((startAction s).setPc .chk 0 0) := by
        rw [pktDecStart_eq_of_hostSide (u := raiseError e u) hbuf hlen hcmd hoff hsec hfrac]

/-! ## The truncations of the header -/

/-- From byte 16 on the header is four timestamps, one for each multiple of 8 below 48 (R103). -/
theorem timestamp_mem_headerChecks {n : Nat} (h16 : 16 ≤ n) (h48 : n < 48) :
    (8 * (n / 8), 8 * (n / 8) + 8) ∈ headerChecks := by
  have hq : n / 8 = 2 ∨ n / 8 = 3 ∨ n / 8 = 4 ∨ n / 8 = 5 := by omega
  rcases hq with hq | hq | hq | hq <;> simp [hq, headerChecks]

/-- The end of the first field that a datagram of fewer than 48 bytes lacks (R242). -/
theorem headerNeed_of_short {n : Nat} (h48 : n < 48) :
    headerNeed n = some (if n < 12 then 12 else if n < 16 then 16 else 8 * (n / 8) + 8) := by
  by_cases h12 : n < 12
  · rw [if_pos h12]
    exact headerNeed_of_between (lower := 0) (by decide) (Nat.zero_le n) h12
  by_cases h16 : n < 16
  · rw [if_neg h12, if_pos h16]
    exact headerNeed_of_between (lower := 12) (by decide) (Nat.not_lt.mp h12) h16
  · rw [if_neg h12, if_neg h16]
    exact headerNeed_of_between (timestamp_mem_headerChecks (Nat.not_lt.mp h16) h48) (by omega) (by omega)

/-- Settles O43: the run ends with the outcome of `pkt_decode`, which is the truncation at the check that fails first. -/
theorem shortDatagramIsTruncated : Obligations.ShortDatagramIsTruncated := by
  intro s hcmd hs h48
  obtain ⟨u, t, hstep, hrun, -, -, -, hresult⟩ := pktDec_ends hs (by omega) (by rw [hcmd]; rfl)
  have hneed := headerNeed_of_short h48
  rw [← datagram_length s] at hneed
  rw [pktDecode_of_short hneed, datagram_length] at hresult
  exact ⟨u, t, hstep, hrun, result_eq_error_iff.mp hresult⟩

/-! ## The Validator -/

theorem modeCheck_of_client {m : ModeVariant} (h : m = .client) : modeCheck m = .accepted := if_pos h

theorem modeCheck_of_ne_client {m : ModeVariant} (h : m ≠ .client) : modeCheck m = .rejectedUnsupportedMode m := if_neg h

theorem modeCheck_eq_accepted_iff {m : ModeVariant} : modeCheck m = .accepted ↔ m = .client := by
  refine ⟨fun h => ?_, modeCheck_of_client⟩
  by_contra hne
  rw [modeCheck_of_ne_client hne] at h
  cases h

/-- The version check (R260) is the only source of its advisory. -/
theorem versionMismatch_mem_advisories_iff {v : BitVec 3} {st : Byte} :
    .versionMismatch ∈ advisories v st ↔ v ≠ 4 := by
  have hv : v.toNat = 4 ↔ v = 4 := BitVec.toNat_inj (y := 4)
  simp [advisories, hv]

/-- The stratum check (R262) is the only source of its advisory. -/
theorem stratum_mem_advisories_iff {v : BitVec 3} {st : Byte} : .stratum ∈ advisories v st ↔ 17 ≤ st.toNat := by
  simp [advisories, Nat.succ_le_iff]

/-- Each check adds one advisory at most, and the two differ. -/
theorem nodup_advisories (v : BitVec 3) (st : Byte) : (advisories v st).Nodup := by
  unfold advisories
  split <;> split <;> decide

/-- Settles O53: the verdict is the mode check, and the advisories come from the two other checks. -/
theorem validatorChecksModeVersionStratum : Obligations.ValidatorChecksModeVersionStratum := fun p =>
  ⟨modeCheck_eq_accepted_iff, modeCheck_of_ne_client, versionMismatch_mem_advisories_iff, stratum_mem_advisories_iff,
    nodup_advisories p.version p.stratum⟩

/-! ## The Receive Loop -/

/-- The engine's run keeps the invariant, as each of its steps does (R42). -/
theorem BusyRun.keeps_inv {k : Nat} {s t : State} (h : BusyRun k s t) (hi : Inv s) : Inv t := by
  induction h with
  | done => exact hi
  | move _ hstep _ ih => exact ih (stepKeepsInvariant _ _ hi hstep)

/-- What the loop reports of a datagram: nothing of the machine or of another datagram is in it (R254 to R257). -/
def Received.report (r : Received) : Report :=
  ⟨r.source, decide (128 < r.bytes.length), reportBody (pktDecode (r.bytes.take 128))⟩

/-- What one pass needs of the machine, and leaves it in: it takes the host's writes, on a `BUF` in canonical form (R283). -/
structure ReadyToReceive (s : State) : Prop where
  bufWf : Memory.bufWf s.buf = true
  not_busy : s.status ≠ .busy

/-- One pass: the datagram, cut to the buffer, is submitted and decoded, and the machine is ready again whether it was a
packet or an error (R254 to R258). -/
theorem receiveOne_report {s : State} (hs : ReadyToReceive s) (r : Received) :
    ∃ t, receiveOne r s = some (t, r.report) ∧ ReadyToReceive t := by
  have hlen : (r.bytes.take 128).length ≤ 128 := List.length_take_le ..
  have hle : (s.loaded (r.bytes.take 128)).len.toNat ≤ 128 := by rwa [loaded_len hlen]
  obtain ⟨t, hmoves, hresult⟩ := endsWith_pktDecStart hle
  rw [datagram_loaded hlen hs.bufWf] at hresult
  obtain ⟨k, -, hrun⟩ := busyRun_of_engineMoves hmoves
  have hinv : Inv t := hrun.keeps_inv (inv_pktDecStart (bufLoad_wf hs.bufWf (by omega)) hle)
  refine ⟨t, ?_, hinv.bufWf, not_busy_of_result hresult⟩
  simp only [receiveOne, runCommand, hostMoves_submitMoves hlen hs.not_busy, hmoves, hresult, Received.report]

/-- The loop is one pass after another: no error ends it (R258). -/
theorem receiveLoop_reports {s : State} (hs : ReadyToReceive s) (rs : List Received) :
    ∃ t, receiveLoop rs s = some (t, rs.map Received.report) ∧ ReadyToReceive t := by
  induction rs generalizing s with
  | nil => exact ⟨s, rfl, hs⟩
  | cons r rs ih =>
    obtain ⟨u, hone, hu⟩ := receiveOne_report hs r
    obtain ⟨t, hrest, ht⟩ := ih hu
    refine ⟨t, ?_, ht⟩
    simp only [receiveLoop, hone, hrest, List.map_cons]

/-- Settles O54: every pass reports its own datagram and leaves the machine ready for the next. -/
theorem receiveLoopReportsEachDatagramAlone : Obligations.ReceiveLoopReportsEachDatagramAlone := by
  intro rs s hbuf hs
  obtain ⟨t, hloop, ht⟩ := receiveLoop_reports ⟨hbuf, hs⟩ rs
  exact ⟨t, hloop, ht.not_busy⟩

end Sys2Proof.Machine
end

section
/-! PROOFS. The host's writes and reads (spec 70_reset_and_hazards R283, R284): `STATUS` guards them, and what each answers
on either side of its guard is said once. -/

namespace Sys2Proof.Machine

/-! ## Writes -/

theorem hostWrite_of_busy {s : State} (hs : s.status = .busy) (s' : State) :
    hostWrite s s' = .refused .hostWriteWhileBusy := if_pos hs

theorem hostWrite_of_not_busy {s : State} (hs : s.status ≠ .busy) (s' : State) : hostWrite s s' = .next s' :=
  hostWrite_eq_next.mpr ⟨hs, rfl⟩

/-- Settles O51: the six writes share one guard, and a byte written to a canonical `BUF` is read back at its own index only. -/
theorem hostWritesOnlyWhenNotBusy : Obligations.HostWritesOnlyWhenNotBusy := by
  intro s i b l o c x y
  refine ⟨fun hs m hm => ?busy, fun hs => ?notBusy⟩
  case busy =>
    simp only [List.mem_cons, List.not_mem_nil, or_false] at hm
    rcases hm with rfl | rfl | rfl | rfl | rfl | rfl <;> exact hostWrite_of_busy hs _
  case notBusy =>
    have hwrite := hostWrite_of_not_busy hs
    exact ⟨hwrite _, hwrite _, hwrite _, hwrite _, hwrite _, fun hbuf =>
      ⟨bufWrite s.buf i.toNat b, hwrite _, bufWrite_wf hbuf i.isLt b, fun a => bufRead_bufWrite hbuf _ a b⟩⟩

/-! ## Reads -/

theorem hostReadReg_of_busy {s : State} {r : Reg} (hs : s.status = .busy) (hr : r ≠ .status) :
    hostReadReg s r = .error .hostReadWhileBusy := if_pos ⟨hs, hr⟩

/-- Past the guard a valued register answers its content; `STATUS` is past it at any time (R284). -/
theorem hostReadReg_of_value {s : State} {r : Reg} {v : BitVec r.width} (hguard : s.status = .busy → r = .status)
    (hv : r.value s = some v) : hostReadReg s r = .ok v := by
  have hopen : ¬(s.status = .busy ∧ r ≠ .status) := fun ⟨hs, hr⟩ => hr (hguard hs)
  rw [hostReadReg, if_neg hopen, hv]

theorem hostReadReg_of_novalue {s : State} {r : Reg} (hs : s.status ≠ .busy) (hv : r.value s = none) :
    hostReadReg s r = .error .hostReadNoValue := by
  rw [hostReadReg, if_neg (hs ·.1), hv]

theorem hostReadBuf_of_busy {s : State} (hs : s.status = .busy) (i : BitVec 7) :
    hostReadBuf s i = .error .hostReadWhileBusy := if_pos hs

theorem hostReadBuf_of_not_busy {s : State} (hs : s.status ≠ .busy) (i : BitVec 7) :
    hostReadBuf s i = .ok (bufRead s.buf i.toNat) := if_neg hs

theorem hostReadOut_of_busy {s : State} (hs : s.status = .busy) (j : BitVec 3) :
    hostReadOut s j = .error .hostReadWhileBusy := if_pos hs

theorem hostReadOut_of_value {s : State} {j : BitVec 3} {b : Byte} (hs : s.status ≠ .busy)
    (hb : outRead s.out j.toNat = some b) : hostReadOut s j = .ok b := by
  rw [hostReadOut, if_neg hs, hb]

theorem hostReadOut_of_novalue {s : State} {j : BitVec 3} (hs : s.status ≠ .busy)
    (hb : outRead s.out j.toNat = none) : hostReadOut s j = .error .hostReadNoValue := by
  rw [hostReadOut, if_neg hs, hb]

/-- Settles O52: what each read answers on either side of its guard; a read move keeps only whether it answered. -/
theorem hostReadsAreGuardedAndPure : Obligations.HostReadsAreGuardedAndPure := by
  intro s r i j
  refine ⟨hostReadReg_of_value (fun _ => rfl) rfl, fun hs => ?busy, fun hs => ?notBusy, ?pure⟩
  case busy => exact ⟨hostReadReg_of_busy hs, hostReadBuf_of_busy hs i, hostReadOut_of_busy hs j⟩
  case notBusy =>
    exact ⟨hostReadReg_of_novalue hs, fun _ => hostReadReg_of_value (absurd · hs), hostReadBuf_of_not_busy hs i,
      hostReadOut_of_novalue hs, fun _ => hostReadOut_of_value hs⟩
  case pure =>
    refine ⟨?_, ?_, ?_⟩ <;> rw [hostMove]
    · cases hostReadReg s r <;> rfl
    · cases hostReadBuf s i <;> rfl
    · cases hostReadOut s j <;> rfl

end Sys2Proof.Machine
end
